-- ==== Sys2Proof/Word.lean ====
section
/-! DEFINITION. The widths the AFE moves (20_memory.md R58): 4-bit codes, 8-bit bytes and 32-bit words. -/

namespace Sys2Proof

/-- One packed ADPCM code (R80). -/
abbrev Nibble := BitVec 4

/-- One byte of an operand, an output or the receive buffer (R10). -/
abbrev Byte := BitVec 8

/-- The 16-bit argument ARG16 of a command word (R72). -/
abbrev Half := BitVec 16

/-- A command word (R71) or a 32-bit register (R22 to R28). -/
abbrev Word := BitVec 32

end Sys2Proof
end

