-- ==== Sys2Proof/Syntax.lean ====
section
/-! DEFINITION. The nine commands of the opcode map (30_encoding.md R73), one constructor per row of the opcode
table. The operand OP is no part of the command word (R71); it comes with the transaction (`State.op`). -/

namespace Sys2Proof

/-- A command, the spec's unit of instruction (R14, R73). -/
inductive Instr where
  /-- DECODE, opcode 0x01 (R110) -/
  | decode
  /-- ENCODE, opcode 0x02 (R111) -/
  | encode
  /-- FRAME_BUILD, opcode 0x03 (R130) -/
  | frameBuild
  /-- RX_FRAGMENT, opcode 0x04 (R140) -/
  | rxFragment
  /-- RX_RESET, opcode 0x05 (R150) -/
  | rxReset
  /-- CACHE_READ, opcode 0x06; ARG8 is the selector (R151) -/
  | cacheRead (selector : Byte)
  /-- CFG_WRITE, opcode 0x10; ARG16 is the new value of CTRL bits 15:0 (R170) -/
  | cfgWrite (value : Half)
  /-- REG_READ, opcode 0x11; ARG8 is the register index (R171) -/
  | regRead (index : Byte)
  /-- STATUS_CLEAR, opcode 0x12; ARG8 is the clear mask (R172) -/
  | statusClear (mask : Byte)
deriving DecidableEq, Repr

/-- Whether a command uses its operand: the "operand" column of R73. A command that does not requires OP empty. -/
def Instr.usesOperand : Instr → Bool
  | .decode => true
  | .encode => true
  | .frameBuild => true
  | .rxFragment => true
  | .rxReset => false
  | .cacheRead _ => false
  | .cfgWrite _ => false
  | .regRead _ => false
  | .statusClear _ => false

end Sys2Proof
end

