-- ==== Sys2Proof/Decode.lean ====
section
/-! DEFINITION. The command word (30_encoding.md R71 to R75): its fields, the decoder, total on every word and
rejecting by name, and the encoder, both from the table of R73. -/

namespace Sys2Proof

/-- Why a word matches no row of R73 (R74 (a)). -/
inductive DecodeError where
  /-- a reserved opcode: 0x00, 0x07 to 0x0F, 0x13 to 0xFF (R75) -/
  | unknownOpcode (opc : Byte)
  /-- ARG8 is not 0 where the row requires 0 -/
  | arg8NotZero (opc : Byte)
  /-- ARG16 is not 0 where the row requires 0 -/
  | arg16NotZero (opc : Byte)
deriving DecidableEq, Repr

/-- OPC, bits 7:0 (R72). -/
def opcField (w : Word) : Byte := w.extractLsb' 0 8

/-- ARG8, bits 15:8 (R72). -/
def arg8Field (w : Word) : Byte := w.extractLsb' 8 8

/-- ARG16, bits 31:16 (R72). -/
def arg16Field (w : Word) : Half := w.extractLsb' 16 16

/-- A row that requires ARG8 = ARG16 = 0. -/
def rowWithoutArgs (w : Word) (i : Instr) : Except DecodeError Instr :=
  if arg8Field w ≠ 0#8 then .error (.arg8NotZero (opcField w))
  else if arg16Field w ≠ 0#16 then .error (.arg16NotZero (opcField w))
  else .ok i

/-- A row whose argument is ARG8 and that requires ARG16 = 0. -/
def rowWithArg8 (w : Word) (f : Byte → Instr) : Except DecodeError Instr :=
  if arg16Field w ≠ 0#16 then .error (.arg16NotZero (opcField w))
  else .ok (f (arg8Field w))

/-- A row whose argument is ARG16 and that requires ARG8 = 0. -/
def rowWithArg16 (w : Word) (f : Half → Instr) : Except DecodeError Instr :=
  if arg8Field w ≠ 0#8 then .error (.arg8NotZero (opcField w))
  else .ok (f (arg16Field w))

/-- The opcode map of R73. The command's own argument check is not made here (R73, last paragraph). -/
def decode (w : Word) : Except DecodeError Instr :=
  if opcField w = 0x01#8 then rowWithoutArgs w .decode
  else if opcField w = 0x02#8 then rowWithoutArgs w .encode
  else if opcField w = 0x03#8 then rowWithoutArgs w .frameBuild
  else if opcField w = 0x04#8 then rowWithoutArgs w .rxFragment
  else if opcField w = 0x05#8 then rowWithoutArgs w .rxReset
  else if opcField w = 0x06#8 then rowWithArg8 w .cacheRead
  else if opcField w = 0x10#8 then rowWithArg16 w .cfgWrite
  else if opcField w = 0x11#8 then rowWithArg8 w .regRead
  else if opcField w = 0x12#8 then rowWithArg8 w .statusClear
  else .error (.unknownOpcode (opcField w))

/-- The word of the format of R72 with the given fields. -/
def commandWord (opc arg8 : Byte) (arg16 : Half) : Word := (arg16 ++ arg8 ++ opc : BitVec (16 + 8 + 8))

/-- The word of a command: the "Encoding" line of the command's rule, and the table of R73. -/
def encode : Instr → Word
  | .decode => commandWord 0x01#8 0#8 0#16
  | .encode => commandWord 0x02#8 0#8 0#16
  | .frameBuild => commandWord 0x03#8 0#8 0#16
  | .rxFragment => commandWord 0x04#8 0#8 0#16
  | .rxReset => commandWord 0x05#8 0#8 0#16
  | .cacheRead selector => commandWord 0x06#8 selector 0#16
  | .cfgWrite value => commandWord 0x10#8 0#8 value
  | .regRead index => commandWord 0x11#8 index 0#16
  | .statusClear mask => commandWord 0x12#8 mask 0#16

/-- The "mask" column of R73: the bits a row fixes. -/
def rowMask : Instr → Word
  | .decode => 0xFFFFFFFF#32
  | .encode => 0xFFFFFFFF#32
  | .frameBuild => 0xFFFFFFFF#32
  | .rxFragment => 0xFFFFFFFF#32
  | .rxReset => 0xFFFFFFFF#32
  | .cacheRead _ => 0xFFFF00FF#32
  | .cfgWrite _ => 0x0000FFFF#32
  | .regRead _ => 0xFFFF00FF#32
  | .statusClear _ => 0xFFFF00FF#32

/-- The "match" column of R73. -/
def rowMatch : Instr → Word
  | .decode => 0x00000001#32
  | .encode => 0x00000002#32
  | .frameBuild => 0x00000003#32
  | .rxFragment => 0x00000004#32
  | .rxReset => 0x00000005#32
  | .cacheRead _ => 0x00000006#32
  | .cfgWrite _ => 0x00000010#32
  | .regRead _ => 0x00000011#32
  | .statusClear _ => 0x00000012#32

/-- The command word made of the first `nbits` bits of `w`, the bits above them zero. Every command word has 32
bits (R71), so bits of `w` from 32 up are none of the word's. -/
def tableWord (nbits w : Nat) : Word := BitVec.ofNat 32 (w % 2 ^ nbits)

/-- The command the decoder reads from an opcode-table row's word. -/
def decodeTableWord (nbits w : Nat) : Option Instr := (decode (tableWord nbits w)).toOption

end Sys2Proof
end

