-- ==== Sys2Proof/Config.lean ====
section
/-! DEFINITION. The two parameters the spec leaves open (00_scope.md R9). A machine carries its own values
in `State.params`; the values after reset are constants without a body, so nothing can be proved of them but
their type and the bound of R9. -/

namespace Sys2Proof

/-- SYNC_MARKER = (S0, S1) and RX_CAPACITY (R9): configuration, which no command changes (R20, R231). -/
structure Params where
  /-- S0, the first marker byte on the wire -/
  sync0 : Byte
  /-- S1, the second marker byte -/
  sync1 : Byte
  /-- RX_CAPACITY, the largest frame accepted, header included -/
  rxCapacity : Nat
deriving DecidableEq, Repr

/-- The constraint of R9: `6 <= RX_CAPACITY <= 2^32 - 1`. -/
abbrev Params.wf (p : Params) : Prop := 6 ≤ p.rxCapacity ∧ p.rxCapacity ≤ 2 ^ 32 - 1

/-- S0: any byte (R9). -/
opaque Config.sync0 : Byte

/-- S1: any byte (R9). -/
opaque Config.sync1 : Byte

/-- RX_CAPACITY - 6: any number that keeps RX_CAPACITY at most 2^32 - 1 (R9); 4294967290 = 2^32 - 6. -/
opaque Config.capacityAboveSix : Fin 4294967290

/-- RX_CAPACITY: every value from 6 to 2^32 - 1 is possible (R9). -/
def Config.rxCapacity : Nat := 6 + Config.capacityAboveSix.val

/-- The parameters of the machine that comes out of `State.reset`. -/
def Config.params : Params := ⟨Config.sync0, Config.sync1, Config.rxCapacity⟩

end Sys2Proof
end

