-- ==== Sys2Proof/Machine/State.lean ====
section
/-! DEFINITION. The state of the AFE (10_state.md R20, R21), its command port (30_encoding.md R70), events and
error kinds (R82, R200), and the state after reset (70_reset_and_hazards.md R230). All of it is plain data. -/

namespace Sys2Proof.Machine

/-- The error kinds of R200. They are reports, not traps (R202, R204). -/
inductive ErrorKind where
  /-- code 1: marker not found or length implausible -/
  | framingError
  /-- code 2: codec input not a multiple of the block size -/
  | truncatedBlock
  /-- code 3: a refused transaction -/
  | illegalCommand
  /-- code 4: the completing fragment had bytes after the frame -/
  | excessDiscarded
  /-- code 5: a PCM operand of odd length -/
  | oddByte
deriving DecidableEq, Repr

/-- The events of R82. -/
inductive Event where
  /-- PROGRESS -/
  | progress
  /-- COMPLETE: the payload P and, when decoded, the PCM bytes D -/
  | complete (payload : List Byte) (pcm : Option (List Byte))
  /-- ERROR with the code of its kind (`ErrorKind.code`) -/
  | error (kind : ErrorKind)
deriving DecidableEq, Repr

/-- `rx_state` between commands (R32). COMPLETE exists only inside one command and is not represented (R152; log 12). -/
inductive RxState where
  | awaitingHeader
  | accumulating
deriving DecidableEq, Repr

/-- The decoded-output cache's content (R35, R146; log 8): the payload and, when it was decoded, the PCM bytes. -/
structure CacheEntry where
  payload : List Byte
  pcm : Option (List Byte)
deriving DecidableEq, Repr

/-- What the host does at the port. -/
inductive HostAction where
  /-- one transaction `(CMD, OP)` (R70) -/
  | command (cmd : Word) (op : List Byte)
  /-- reset (R230); `some (CMD, OP)` when it is asserted while that transaction is in progress and cancels it (R232) -/
  | reset (cancelled : Option (Word × List Byte))
deriving DecidableEq, Repr

/-- Why the machine stops: never. Every command has a defined result (93_implementation_defined.md, treatment
`stuck`; R204, R237), so the type has no constructor, which is safe: no claim rests on a stop. -/
inductive Fault where
deriving DecidableEq, Repr

/-- Refusals of the MODEL, not of the AFE: a transaction the AFE refuses (R74) is a next state. -/
inductive Refusal where
  /-- raised only by an arm of `exec` for a command without a meaning; no arm is one. Safe: it claims nothing. -/
  | notModelled (mnemonic : String)
deriving DecidableEq, Repr

/-- The whole machine. The first seven fields are the architectural state of R20. `params` is configuration that no
step changes (R20, R231; log 3). The last four are the command port (R70; log 1). -/
@[ext]
structure State where
  /-- CTRL (R22) -/
  ctrl : Word
  /-- the sticky bits 12:8 of STATUS, bit 0 is FRAMING_ERR (R23); the whole register is `State.status` (log 5) -/
  sticky : BitVec 5
  /-- `rx_state` (R32) -/
  rxState : RxState
  /-- `rx_buf` (R33) -/
  rxBuf : List Byte
  /-- `rx_expected` (R34) -/
  rxExpected : Option Nat
  /-- `cache` (R35) -/
  cache : Option CacheEntry
  /-- MSG_COUNT (R26) -/
  msgCount : Word
  /-- SYNC_MARKER and RX_CAPACITY (R9) -/
  params : Params
  /-- the host's actions still to come, oldest first (R60) -/
  inbox : List HostAction
  /-- OP of the transaction in progress, or of the last one (R70) -/
  op : List Byte
  /-- OUT of the last answer (R70) -/
  out : List Byte
  /-- EV of the last answer (R70, R82) -/
  ev : List Event
deriving DecidableEq, Repr

/-- The state after reset (R230); nothing waits at the port (log 1). -/
def State.reset : State where
  ctrl := 0x00000005#32
  sticky := 0#5
  rxState := .awaitingHeader
  rxBuf := []
  rxExpected := none
  cache := none
  msgCount := 0#32
  params := Config.params
  inbox := []
  op := []
  out := []
  ev := []

/-- What the header phase of RX_FRAGMENT finds in the buffer (R142): the bytes it keeps, the expected total if it
parsed a header, and whether it notes a FramingError. -/
structure HeaderResult where
  buf : List Byte
  expected : Option Nat
  framing : Bool
deriving DecidableEq, Repr

/-- What a step takes from the port. -/
inductive Fetched where
  /-- nothing is pending -/
  | idle
  /-- the host asserts reset; the state is the one with the action taken from the inbox -/
  | reset (s : State)
  /-- a transaction's word; the state has its operand in `op` -/
  | command (cmd : Word) (s : State)
deriving DecidableEq, Repr

end Sys2Proof.Machine
end

