-- ==== Sys2Proof/Machine/Flags.lean ====
section
/-! DEFINITION. The fields of CTRL (10_state.md R22) and STATUS (R23), and the code and sticky bit of each error kind
(60_exceptions.md R200). -/

namespace Sys2Proof.Machine

/-- CTRL.RX_COMPRESSED, bit 0 (R22). -/
def State.rxCompressed (s : State) : Bool := s.ctrl.getLsbD 0

/-- CTRL.TX_COMPRESSED, bit 1 (R22). -/
def State.txCompressed (s : State) : Bool := s.ctrl.getLsbD 1

/-- CTRL.RESYNC_SCAN, bit 2 (R22). -/
def State.resyncScan (s : State) : Bool := s.ctrl.getLsbD 2

/-- CTRL.TRUNC_PAD, bit 3 (R22). -/
def State.truncPad (s : State) : Bool := s.ctrl.getLsbD 3

/-- The 4-bit error code (R200, R82). -/
def ErrorKind.code : ErrorKind → Nibble
  | .framingError => 1#4
  | .truncatedBlock => 2#4
  | .illegalCommand => 3#4
  | .excessDiscarded => 4#4
  | .oddByte => 5#4

/-- The kind's sticky bit, as a mask over STATUS bits 12:8 (R200). -/
def ErrorKind.stickyBit : ErrorKind → BitVec 5
  | .framingError => 0b00001#5
  | .truncatedBlock => 0b00010#5
  | .illegalCommand => 0b00100#5
  | .excessDiscarded => 0b01000#5
  | .oddByte => 0b10000#5

/-- The value STATUS.RX_STATE shows (R23). -/
def RxState.code : RxState → BitVec 2
  | .awaitingHeader => 0#2
  | .accumulating => 1#2

/-- The STATUS register (R23): RX_STATE in bits 1:0, the sticky bits in 12:8, the other bits read as 0. -/
def State.status (s : State) : Word := (s.sticky.setWidth 32 <<< 8) ||| s.rxState.code.setWidth 32

end Sys2Proof.Machine
end

