-- ==== Sys2Proof/Machine/Tables.lean ====
section
/-! DEFINITION. The fixed constants (00_scope.md R8) and the two tables of the codec (10_state.md R30, R31), each one
named definition so that a verified copy can replace it (93_implementation_defined.md I40, I41, I50 to I53). -/

namespace Sys2Proof.Machine

/-- BLOCK_BYTES (R8). -/
@[simp] abbrev blockBytes : Nat := 256

/-- BLOCK_HEADER_BYTES (R8). -/
@[simp] abbrev blockHeaderBytes : Nat := 4

/-- NIBBLES_PER_BLOCK (R8). -/
@[simp] abbrev nibblesPerBlock : Nat := 504

/-- ENCODE_CAPACITY (R8). -/
@[simp] abbrev encodeCapacity : Nat := 504

/-- STEP_INDEX_MAX (R8). -/
@[simp] abbrev stepIndexMax : Nat := 88

/-- SAMPLE_MIN (R8). -/
@[simp] abbrev sampleMin : Int := -32768

/-- SAMPLE_MAX (R8). -/
@[simp] abbrev sampleMax : Int := 32767

/-- FRAME_HEADER_BYTES (R8). -/
@[simp] abbrev frameHeaderBytes : Nat := 6

/-- LEN_OFFSET (R8). -/
@[simp] abbrev lenOffset : Nat := 2

/-- Operands are shorter than this many bytes (R51, R74 (c)). -/
@[simp] abbrev operandLimit : Nat := 2 ^ 32

/-- STEP_TABLE (R30). PRESUMED by the spec itself: the standard IMA table (log 6). -/
def stepTable : List Nat :=
  [7, 8, 9, 10, 11, 12, 13, 14, 16, 17] ++
  [19, 21, 23, 25, 28, 31, 34, 37, 41, 45] ++
  [50, 55, 60, 66, 73, 80, 88, 97, 107, 118] ++
  [130, 143, 157, 173, 190, 209, 230, 253, 279, 307] ++
  [337, 371, 408, 449, 494, 544, 598, 658, 724, 796] ++
  [876, 963, 1060, 1166, 1282, 1411, 1552, 1707, 1878, 2066] ++
  [2272, 2499, 2749, 3024, 3327, 3660, 4026, 4428, 4871, 5358] ++
  [5894, 6484, 7132, 7845, 8630, 9493, 10442, 11487, 12635, 13899] ++
  [15289, 16818, 18500, 20350, 22385, 24623, 27086, 29794, 32767]

/-- INDEX_TABLE (R31). PRESUMED by the spec itself: the standard IMA table (log 6). -/
def indexTable : List Int := [-1, -1, -1, -1, 2, 4, 6, 8, -1, -1, -1, -1, 2, 4, 6, 8]

/-- `STEP_TABLE[idx]`, for idx in 0 .. 88. -/
def stepAt (idx : Nat) : Nat := stepTable.getD idx 0

/-- `INDEX_TABLE[n]`. -/
def indexDelta (n : Nibble) : Int := indexTable.getD n.toNat 0

end Sys2Proof.Machine
end

