-- ==== Sys2Proof/Machine/Operands.lean ====
section
/-! DEFINITION. The forms operands and outputs take: byte order (20_memory.md R52 to R56), PCM samples, packed codes,
and the argument checks of the commands (30_encoding.md R73). -/

namespace Sys2Proof.Machine

/-- `q[i]` (R10). -/
def byteAt (q : List Byte) (i : Nat) : Byte := q.getD i 0#8

/-- The `n` elements of `q` from `i` on, fewer where `q` ends: `q[i .. i+n-1]` (R10). -/
def slice {α : Type} (q : List α) (i n : Nat) : List α := (q.drop i).take n

/-- `n` bytes 0x00. -/
def zeros (n : Nat) : List Byte := List.replicate n 0#8

/-- `le16(q, i)`, unsigned (R11). -/
def le16 (q : List Byte) (i : Nat) : Nat := (byteAt q i).toNat + 256 * (byteAt q (i + 1)).toNat

/-- `le32(q, i)`, unsigned (R11, R52). -/
def le32 (q : List Byte) (i : Nat) : Nat :=
  (byteAt q i).toNat + 2 ^ 8 * (byteAt q (i + 1)).toNat + 2 ^ 16 * (byteAt q (i + 2)).toNat
    + 2 ^ 24 * (byteAt q (i + 3)).toNat

/-- `sext_16(v)` for a 16-bit value (R11). -/
def sext16 (v : Nat) : Int := if 32768 ≤ v then (v : Int) - 65536 else (v : Int)

/-- `u16le(v)` (R11). -/
def u16le (v : Int) : List Byte := [(BitVec.ofInt 16 v).extractLsb' 0 8, (BitVec.ofInt 16 v).extractLsb' 8 8]

/-- `u32le(v)` (R11). -/
def u32le (v : Word) : List Byte :=
  [v.extractLsb' 0 8, v.extractLsb' 8 8, v.extractLsb' 16 8, v.extractLsb' 24 8]

/-- `clamp(v, lo, hi)` (R11). -/
def clamp (v lo hi : Int) : Int := if v < lo then lo else if hi < v then hi else v

/-- The samples of a PCM byte sequence (R53); an odd last byte forms no sample (R81). -/
def samplesOf : List Byte → List Int
  | lo :: hi :: q => sext16 (lo.toNat + 256 * hi.toNat) :: samplesOf q
  | _ => []

/-- The PCM byte sequence of samples (R53). -/
def pcmBytes (samples : List Int) : List Byte := samples.flatMap u16le

/-- The 4-bit codes packed in bytes, low nibble first (R55). -/
def codesOf (q : List Byte) : List Nibble := q.flatMap fun b => [b.extractLsb' 0 4, b.extractLsb' 4 4]

/-- Codes packed into bytes, low nibble first (R55); the high nibble of an odd last code is 0. -/
def packCodes : List Nibble → List Byte
  | lo :: hi :: q => (hi ++ lo : BitVec (4 + 4)) :: packCodes q
  | [lo] => [(0#4 ++ lo : BitVec (4 + 4))]
  | [] => []

/-- CACHE_READ's argument check: the selector is 0 or 1 (R151). -/
def selectorLegal (selector : Byte) : Bool := !decide (selector > 1#8)

/-- CFG_WRITE's argument check: bits 15:4 are 0 (R170). -/
def ctrlValueLegal (value : Half) : Bool := decide (value.extractLsb' 4 12 = 0#12)

/-- REG_READ's argument check: an index of 0x00 to 0x06 (R171, R29). -/
def regIndexLegal (index : Byte) : Bool := decide (index ≤ 0x06#8)

/-- STATUS_CLEAR's argument check: mask bits 7:5 are 0 (R172). -/
def clearMaskLegal (mask : Byte) : Bool := decide (mask.extractLsb' 5 3 = 0#3)

end Sys2Proof.Machine
end

