-- ==== Sys2Proof/Machine/Ops.lean ====
section
/-! DEFINITION. The operations the commands share. The AFE has no traps (60_exceptions.md R204): what stands where
another machine takes an exception is `State.raise` (R202) and the refusal of a transaction (30_encoding.md R74). -/

namespace Sys2Proof.Machine

/-- A transaction's answer starts with OUT and EV empty (R70). -/
def State.beginAnswer (s : State) : State := { s with out := [], ev := [] }

/-- `emit E` (R12). -/
def State.emit (e : Event) (s : State) : State := { s with ev := s.ev ++ [e] }

/-- `OUT <- OUT ++ q` (R12). -/
def State.output (q : List Byte) (s : State) : State := { s with out := s.out ++ q }

/-- `raise Error(code)` (R202): set the kind's sticky bit and append its ERROR event. -/
def State.raise (k : ErrorKind) (s : State) : State :=
  { s with sticky := s.sticky ||| k.stickyBit, ev := s.ev ++ [.error k] }

/-- `raise` under a condition. -/
def State.raiseIf (c : Bool) (k : ErrorKind) (s : State) : State := if c then s.raise k else s

/-- The refused transaction of R74: IllegalCommand is raised, OUT is empty, nothing else changes. -/
def State.refused (s : State) : State := s.beginAnswer.raise .illegalCommand

/-- A command that passes its legality checks has its effect; one that does not is refused (R74, R207). -/
def transact (legal : Bool) (effect : State → State) (s : State) : Host.Outcome State Fault Refusal :=
  .next (if legal then effect s.beginAnswer else s.refused)

/-- R74 (c): the operand is shorter than 2^32 bytes. -/
def State.operandFits (s : State) : Bool := decide (s.op.length < operandLimit)

/-- R74 (b): the operand is empty. -/
def State.operandEmpty (s : State) : Bool := s.op.isEmpty

/-- The reset of the whole AFE (R230). The parameters stay (R231), as do the host's later actions; the port shows no
answer (R232). -/
def State.hostReset (s : State) : State := { State.reset with params := s.params, inbox := s.inbox }

/-- The next host action, taken from the inbox (R60). A reset cancels the transaction it interrupts (R232), whose word
and operand then have no effect. -/
def fetch (s : State) : Fetched :=
  match s.inbox with
  | [] => .idle
  | .reset _ :: rest => .reset { s with inbox := rest }
  | .command cmd op :: rest => .command cmd { s with inbox := rest, op := op }

/-- The state with the transaction `(CMD, OP)` as the next host action. -/
def State.withCommand (s : State) (cmd : Word) (op : List Byte) : State :=
  { s with inbox := .command cmd op :: s.inbox }

end Sys2Proof.Machine
end

