-- ==== Sys2Proof/Machine/Codec.lean ====
section
/-! DEFINITION. The codec (40_codec.md): its primitives, blocks and streams, and the commands DECODE and ENCODE. All
arithmetic is on exact integers (R103). -/

namespace Sys2Proof.Machine

/-- The magnitude `diff` of a code at a step (R80, R101). -/
def codeMagnitude (step : Nat) (n : Nibble) : Nat :=
  (step >>> 3) + (if n.getLsbD 0 then step >>> 2 else 0) + (if n.getLsbD 1 then step >>> 1 else 0)
    + (if n.getLsbD 2 then step else 0)

/-- `DecodeNibble(pred, idx, n)` (R101): the new predictor, which is the sample, and the new index. -/
def decodeNibble (pred : Int) (idx : Nat) (n : Nibble) : Int × Nat :=
  let diff : Int := codeMagnitude (stepAt idx) n
  let p := if n.getLsbD 3 then pred - diff else pred + diff
  (clamp p sampleMin sampleMax, (clamp (idx + indexDelta n) 0 stepIndexMax).toNat)

/-- The magnitude bits of the encoder's code for the magnitude `d` of the difference (R102). -/
def quantize (step d : Nat) : Nibble :=
  let b2 := decide (step ≤ d)
  let d2 := if b2 then d - step else d
  let b1 := decide (step >>> 1 ≤ d2)
  let d1 := if b1 then d2 - (step >>> 1) else d2
  let b0 := decide (step >>> 2 ≤ d1)
  (if b2 then 4#4 else 0#4) ||| (if b1 then 2#4 else 0#4) ||| (if b0 then 1#4 else 0#4)

/-- The code `c` of `EncodeSample(pred, idx, s)` (R102). -/
def sampleCode (pred : Int) (idx : Nat) (sample : Int) : Nibble :=
  (if sample - pred < 0 then 8#4 else 0#4) ||| quantize (stepAt idx) (sample - pred).natAbs

/-- `EncodeSample(pred, idx, s)` (R102): the code, the new predictor and the new index. -/
def encodeSample (pred : Int) (idx : Nat) (sample : Int) : Nibble × Int × Nat :=
  (sampleCode pred idx sample, decodeNibble pred idx (sampleCode pred idx sample))

/-- The samples of a sequence of codes, from a running predictor and index (R104). -/
def decodeCodes (pred : Int) (idx : Nat) : List Nibble → List Int
  | [] => []
  | n :: codes =>
    let r := decodeNibble pred idx n
    r.1 :: decodeCodes r.1 r.2 codes

/-- The codes of a sequence of samples, from a running predictor and index (R105). -/
def encodeCodes (pred : Int) (idx : Nat) : List Int → List Nibble
  | [] => []
  | sample :: samples =>
    let r := encodeSample pred idx sample
    r.1 :: encodeCodes r.2.1 r.2.2 samples

/-- The header's PREDICTOR (R54, R79). -/
def blockPredictor (block : List Byte) : Int := sext16 (le16 block 0)

/-- The header's STEP_INDEX, clamped to 88 (R104). -/
def blockIndex (block : List Byte) : Nat := min (byteAt block 2).toNat stepIndexMax

/-- The 504 codes of a block (R79, R55). -/
def blockCodes (block : List Byte) : List Nibble := codesOf (block.drop blockHeaderBytes)

/-- `DecodeBlock(B)` (R104): 505 samples. The RESERVED byte 3 is not read. -/
def decodeBlock (block : List Byte) : List Int :=
  blockPredictor block :: decodeCodes (blockPredictor block) (blockIndex block) (blockCodes block)

/-- `EncodeBlock(S)` (R105): 256 bytes. Code positions without a sample are 0. -/
def encodeBlock (samples : List Int) : List Byte :=
  let first := samples.headD 0
  let codes := encodeCodes first 0 samples.tail
  u16le first ++ [0#8, 0#8] ++ packCodes (codes ++ List.replicate (nibblesPerBlock - codes.length) 0#4)

/-- Whether a codec input is not a whole number of blocks: the condition of TruncatedBlock (R106). -/
def truncated (q : List Byte) : Bool := decide (q.length % blockBytes ≠ 0)

/-- The whole blocks of a stream, decoded (R106, R57). -/
def decodeWholeBlocks (q : List Byte) : List Int :=
  (List.range (q.length / blockBytes)).flatMap fun j => decodeBlock (slice q (blockBytes * j) blockBytes)

/-- The trailing partial block of a stream, padded with 0x00 to a block (R106). -/
def paddedTail (q : List Byte) : List Byte :=
  q.drop (blockBytes * (q.length / blockBytes)) ++ zeros (blockBytes - q.length % blockBytes)

/-- The samples of `DecodeStream(Q)` (R106); `pad` is CTRL.TRUNC_PAD. The report of TruncatedBlock is
`State.noteTruncation`. -/
def decodeStream (pad : Bool) (q : List Byte) : List Int :=
  decodeWholeBlocks q ++ (if truncated q && pad then decodeBlock (paddedTail q) else [])

/-- Whether a PCM input has a byte that forms no sample: the condition of OddByte (R107). -/
def oddLength (q : List Byte) : Bool := decide (q.length % 2 = 1)

/-- The blocks of a sample sequence, 504 samples each, the last one shorter (R107). -/
def encodeBlocks (samples : List Int) : List Byte :=
  (List.range ((samples.length + (encodeCapacity - 1)) / encodeCapacity)).flatMap fun b =>
    encodeBlock (slice samples (encodeCapacity * b) encodeCapacity)

/-- The bytes of `EncodeStream(Q)` (R107). The report of OddByte is `State.noteOddByte`. -/
def encodeStream (q : List Byte) : List Byte := encodeBlocks (samplesOf q)

/-- The TruncatedBlock report of `DecodeStream(Q)` (R106). -/
def State.noteTruncation (q : List Byte) (s : State) : State := s.raiseIf (truncated q) .truncatedBlock

/-- The OddByte report of `EncodeStream(Q)` (R107). -/
def State.noteOddByte (q : List Byte) (s : State) : State := s.raiseIf (oddLength q) .oddByte

/-- The effect of a legal DECODE (R110). -/
def decodeEffect (s : State) : State :=
  (s.noteTruncation s.op).output (pcmBytes (decodeStream s.truncPad s.op))

/-- The effect of a legal ENCODE (R111). -/
def encodeEffect (s : State) : State := (s.noteOddByte s.op).output (encodeStream s.op)

/-- DECODE (R110). -/
def execDecode (s : State) : Host.Outcome State Fault Refusal := transact s.operandFits decodeEffect s

/-- ENCODE (R111). -/
def execEncode (s : State) : Host.Outcome State Fault Refusal := transact s.operandFits encodeEffect s

end Sys2Proof.Machine
end

