-- ==== Sys2Proof/Machine/Control.lean ====
section
/-! DEFINITION. The control commands (43_control.md): CFG_WRITE, REG_READ and STATUS_CLEAR. -/

namespace Sys2Proof.Machine

/-- The effect of a legal CFG_WRITE (R170). -/
def cfgWriteEffect (value : Half) (s : State) : State := { s with ctrl := value.setWidth 32 }

/-- CFG_WRITE (R170). -/
def execCfgWrite (value : Half) (s : State) : Host.Outcome State Fault Refusal :=
  transact (s.operandEmpty && ctrlValueLegal value) (cfgWriteEffect value) s

/-- The value of the register with the given index (R171, R22 to R28). An index from 7 up is reserved; REG_READ
refuses it before this is read. -/
def State.register (index : Byte) (s : State) : Word :=
  if index = 0x00#8 then s.ctrl
  else if index = 0x01#8 then s.status
  else if index = 0x02#8 then BitVec.ofNat 32 s.rxBuf.length
  else if index = 0x03#8 then BitVec.ofNat 32 (s.rxExpected.getD 0)
  else if index = 0x04#8 then s.msgCount
  else if index = 0x05#8 then BitVec.ofNat 32 s.params.rxCapacity
  else (s.params.sync1 ++ s.params.sync0 : BitVec (8 + 8)).setWidth 32

/-- REG_READ (R171). -/
def execRegRead (index : Byte) (s : State) : Host.Outcome State Fault Refusal :=
  transact (s.operandEmpty && regIndexLegal index) (fun t => t.output (u32le (t.register index))) s

/-- The effect of a legal STATUS_CLEAR: bit i of the mask clears STATUS bit 8 + i (R172). -/
def statusClearEffect (mask : Byte) (s : State) : State :=
  { s with sticky := s.sticky &&& ~~~(mask.extractLsb' 0 5) }

/-- STATUS_CLEAR (R172). -/
def execStatusClear (mask : Byte) (s : State) : Host.Outcome State Fault Refusal :=
  transact (s.operandEmpty && clearMaskLegal mask) (statusClearEffect mask) s

end Sys2Proof.Machine
end

