-- ==== Sys2Proof/Machine/Frame.lean ====
section
/-! DEFINITION. The frame builder (41_frame.md) and FRAME_BUILD. -/

namespace Sys2Proof.Machine

/-- The 6-byte header of a frame with a payload of `n` bytes (R78). -/
def frameHeader (p : Params) (n : Nat) : List Byte := [p.sync0, p.sync1] ++ u32le (BitVec.ofNat 32 n)

/-- `BuildFrame(P)` (R131). -/
def buildFrame (p : Params) (payload : List Byte) : List Byte := frameHeader p payload.length ++ payload

/-- The effect of a legal FRAME_BUILD (R130). -/
def frameBuildEffect (s : State) : State :=
  if s.txCompressed then (s.noteOddByte s.op).output (buildFrame s.params (encodeStream s.op))
  else s.output (buildFrame s.params s.op)

/-- FRAME_BUILD (R130). -/
def execFrameBuild (s : State) : Host.Outcome State Fault Refusal := transact s.operandFits frameBuildEffect s

end Sys2Proof.Machine
end

