-- ==== Sys2Proof/Machine/Reassembler.lean ====
section
/-! DEFINITION. The receive reassembler (42_reassembler.md): RX_FRAGMENT, RX_RESET and CACHE_READ. -/

namespace Sys2Proof.Machine

/-- `MarkerPrefix(q)` (R141). -/
def markerPrefix (p : Params) : List Byte → Bool
  | [] => false
  | [b0] => decide (b0 = p.sync0)
  | b0 :: b1 :: _ => decide (b0 = p.sync0) && decide (b1 = p.sync1)

/-- The expected total 6 + L of a buffer that holds a header (R142). -/
def declaredTotal (q : List Byte) : Nat := frameHeaderBytes + le32 q lenOffset

/-- The header loop of R140 with RESYNC_SCAN = 1: bytes are dropped, each noting a FramingError, until the buffer is
empty, or is a marker prefix too short for a header, or starts with a header of a plausible length. -/
def scanHeader (p : Params) : List Byte → HeaderResult
  | [] => ⟨[], none, false⟩
  | b :: q =>
    if markerPrefix p (b :: q) then
      if (b :: q).length < frameHeaderBytes then ⟨b :: q, none, false⟩
      else if p.rxCapacity < declaredTotal (b :: q) then { scanHeader p q with framing := true }
      else ⟨b :: q, some (declaredTotal (b :: q)), false⟩
    else { scanHeader p q with framing := true }

/-- The header loop of R140 with RESYNC_SCAN = 0: the marker bytes are not compared, and an implausible length clears
the buffer. -/
def trustHeader (p : Params) (q : List Byte) : HeaderResult :=
  if q.length < frameHeaderBytes then ⟨q, none, false⟩
  else if p.rxCapacity < declaredTotal q then ⟨[], none, true⟩
  else ⟨q, some (declaredTotal q), false⟩

/-- The header loop of R140 under CTRL.RESYNC_SCAN. -/
def parseHeader (scan : Bool) (p : Params) (q : List Byte) : HeaderResult :=
  if scan then scanHeader p q else trustHeader p q

/-- The receive state after the header loop found `r` (R142). -/
def State.acceptHeader (r : HeaderResult) (s : State) : State :=
  match r.expected with
  | none => { s with rxBuf := r.buf }
  | some total => { s with rxBuf := r.buf, rxExpected := some total, rxState := .accumulating }

/-- The header phase (R142): it runs only in AWAITING_HEADER and raises FramingError at most once. -/
def headerPhase (s : State) : State :=
  match s.rxState with
  | .accumulating => s
  | .awaitingHeader =>
    let r := parseHeader s.resyncScan s.params s.rxBuf
    (s.acceptHeader r).raiseIf r.framing .framingError

/-- The payload of a frame of `total` bytes at the start of the buffer: `rx_buf[6 .. E - 1]` (R143). -/
def framePayload (q : List Byte) (total : Nat) : List Byte := (q.take total).drop frameHeaderBytes

/-- The PCM bytes D of a completed payload, absent when RX_COMPRESSED = 0 (R143). -/
def State.decodedPayload (payload : List Byte) (s : State) : Option (List Byte) :=
  if s.rxCompressed then some (pcmBytes (decodeStream s.truncPad payload)) else none

/-- The completion's record: cache, MSG_COUNT and the COMPLETE event (R146). -/
def State.recordFrame (payload : List Byte) (pcm : Option (List Byte)) (s : State) : State :=
  { s with cache := some ⟨payload, pcm⟩, msgCount := s.msgCount + 1#32, ev := s.ev ++ [.complete payload pcm] }

/-- The auto-rearm (R144). -/
def State.rearm (s : State) : State :=
  { s with rxBuf := [], rxExpected := none, rxState := .awaitingHeader }

/-- The completion of a frame of `total` bytes (R143, R144, R146, R147). -/
def completeFrame (total : Nat) (s : State) : State :=
  let payload := framePayload s.rxBuf total
  (((s.raiseIf (decide (total < s.rxBuf.length)) .excessDiscarded).raiseIf
    (s.rxCompressed && truncated payload) .truncatedBlock).recordFrame payload (s.decodedPayload payload)).rearm

/-- The completion phase (R143): it runs in ACCUMULATING when the whole frame is in the buffer. ACCUMULATING without
an expected total is reached by no run (R32) and completes nothing (log 10). -/
def completionPhase (s : State) : State :=
  match s.rxState, s.rxExpected with
  | .accumulating, some total => if total ≤ s.rxBuf.length then completeFrame total s else s
  | .accumulating, none => s
  | .awaitingHeader, _ => s

/-- The fragment appended to the buffer (R140). -/
def State.appendFragment (s : State) : State := { s with rxBuf := s.rxBuf ++ s.op }

/-- The effect of a legal RX_FRAGMENT (R140): append, header phase, PROGRESS, completion phase. -/
def rxFragmentEffect (s : State) : State := completionPhase ((headerPhase s.appendFragment).emit .progress)

/-- RX_FRAGMENT (R140). -/
def execRxFragment (s : State) : Host.Outcome State Fault Refusal := transact s.operandFits rxFragmentEffect s

/-- The effect of a legal RX_RESET (R150). -/
def rxResetEffect (s : State) : State := { s.rearm with cache := none }

/-- RX_RESET (R150). -/
def execRxReset (s : State) : Host.Outcome State Fault Refusal := transact s.operandEmpty rxResetEffect s

/-- What CACHE_READ returns (R151). -/
def cacheBytes (selector : Byte) : Option CacheEntry → List Byte
  | none => []
  | some entry => if selector = 0#8 then entry.payload else entry.pcm.getD []

/-- CACHE_READ (R151). -/
def execCacheRead (selector : Byte) (s : State) : Host.Outcome State Fault Refusal :=
  transact (s.operandEmpty && selectorLegal selector) (fun t => t.output (cacheBytes selector t.cache)) s

end Sys2Proof.Machine
end

