-- ==== Sys2Proof/Machine/Dispatch.lean ====
section
/-! DEFINITION. One arm per command (30_encoding.md R73). -/

namespace Sys2Proof.Machine

/-- The command `i` executed on the transaction whose operand is `s.op`. -/
def exec (i : Instr) (s : State) : Host.Outcome State Fault Refusal :=
  match i with
  | .decode => Sys2Proof.Machine.execDecode s
  | .encode => Sys2Proof.Machine.execEncode s
  | .frameBuild => Sys2Proof.Machine.execFrameBuild s
  | .rxFragment => Sys2Proof.Machine.execRxFragment s
  | .rxReset => Sys2Proof.Machine.execRxReset s
  | .cacheRead selector => Sys2Proof.Machine.execCacheRead selector s
  | .cfgWrite value => Sys2Proof.Machine.execCfgWrite value s
  | .regRead index => Sys2Proof.Machine.execRegRead index s
  | .statusClear mask => Sys2Proof.Machine.execStatusClear mask s

end Sys2Proof.Machine
end

