-- ==== Sys2Proof/Machine/Step.lean ====
section
/-! DEFINITION. One step of the AFE: the next host action, whole (00_scope.md R13, R15; 20_memory.md R60). -/

namespace Sys2Proof.Machine

/-- One step. A transaction whose word decodes runs its command; one whose word matches no row is refused (R74 (a));
a reset gives the reset state (R230); with nothing pending the AFE holds its state (R15, R214; log 2). -/
def step (s : State) : Host.Outcome State Fault Refusal :=
  match fetch s with
  | .idle => .next s
  | .reset t => .next t.hostReset
  | .command cmd t =>
    match decode cmd with
    | .ok i => exec i t
    | .error _ => .next t.refused

/-- The state with a command word, and an empty operand, as the next host action: the next step runs it. -/
def State.withFetchWord (s : State) (nbits w : Nat) : State := s.withCommand (tableWord nbits w) []

end Sys2Proof.Machine
end

