-- ==== Sys2Proof/Machine/Assembler.lean ====
section
/-! DEFINITION. The assembler syntax of 30_encoding.md R76 as abstract syntax: a line, its operand expression and the
three pseudo-commands, each with the transaction it stands for. It has no effect on the machine (D32). -/

namespace Sys2Proof.Machine

/-- One item of a `{b0 b1 ...}` operand: a byte, or `S0` or `S1`. -/
inductive AsmByte where
  | lit (b : Byte)
  | s0
  | s1
deriving DecidableEq, Repr

/-- An operand expression. -/
inductive AsmOperand where
  /-- `{b0 b1 ...}` -/
  | bytes (items : List AsmByte)
  /-- `pcm[s0, s1, ...]` -/
  | pcm (samples : List Int)
  /-- `zeros(n)` -/
  | zeros (n : Nat)
  /-- `q1 ++ q2` -/
  | cat (q1 q2 : AsmOperand)
deriving DecidableEq, Repr

/-- A register name of REG_READ. -/
inductive RegName where
  | ctrl
  | status
  | rxCount
  | rxExpected
  | msgCount
  | capacity
  | sync
deriving DecidableEq, Repr

/-- CACHE_READ's argument. -/
inductive CacheSelector where
  | payload
  | samples
deriving DecidableEq, Repr

/-- REG_READ's argument: a name or an 8-bit number. -/
inductive RegOperand where
  | name (r : RegName)
  | number (index : Byte)
deriving DecidableEq, Repr

/-- A mnemonic with its argument. -/
inductive AsmHead where
  | decode
  | encode
  | frameBuild
  | rxFragment
  | rxReset
  | cacheRead (selector : CacheSelector)
  | cfgWrite (value : Half)
  | regRead (r : RegOperand)
  | statusClear (mask : Byte)
deriving DecidableEq, Repr

/-- A line: a command with its operand, or a pseudo-command. -/
inductive AsmLine where
  | command (head : AsmHead) (operand : AsmOperand)
  | statusClearAll
  | cfgDefault
  /-- `RX_FRAME q`: a whole frame as one fragment -/
  | rxFrame (payload : AsmOperand)
deriving DecidableEq, Repr

/-- The register index of a name (R22 to R28). -/
def RegName.index : RegName → Byte
  | .ctrl => 0x00#8
  | .status => 0x01#8
  | .rxCount => 0x02#8
  | .rxExpected => 0x03#8
  | .msgCount => 0x04#8
  | .capacity => 0x05#8
  | .sync => 0x06#8

/-- `PAYLOAD` is selector 0, `SAMPLES` selector 1. -/
def CacheSelector.value : CacheSelector → Byte
  | .payload => 0#8
  | .samples => 1#8

/-- The register index a REG_READ argument names. -/
def RegOperand.index : RegOperand → Byte
  | .name r => r.index
  | .number index => index

/-- The command of a mnemonic and its argument. -/
def AsmHead.instr : AsmHead → Instr
  | .decode => .decode
  | .encode => .encode
  | .frameBuild => .frameBuild
  | .rxFragment => .rxFragment
  | .rxReset => .rxReset
  | .cacheRead selector => .cacheRead selector.value
  | .cfgWrite value => .cfgWrite value
  | .regRead r => .regRead r.index
  | .statusClear mask => .statusClear mask

/-- The byte of one item of an operand. -/
def AsmByte.value (p : Params) : AsmByte → Byte
  | .lit b => b
  | .s0 => p.sync0
  | .s1 => p.sync1

/-- The bytes of an operand expression. -/
def AsmOperand.value (p : Params) : AsmOperand → List Byte
  | .bytes items => items.map (AsmByte.value p)
  | .pcm samples => pcmBytes samples
  | .zeros n => Sys2Proof.Machine.zeros n
  | .cat q1 q2 => q1.value p ++ q2.value p

/-- The transaction of a line, with the expansions of the pseudo-commands (R76). -/
def AsmLine.action (p : Params) : AsmLine → HostAction
  | .command head operand => .command (encode head.instr) (operand.value p)
  | .statusClearAll => .command (encode (.statusClear 0x1F#8)) []
  | .cfgDefault => .command (encode (.cfgWrite 0x0005#16)) []
  | .rxFrame payload => .command (encode .rxFragment) (buildFrame p (payload.value p))

end Sys2Proof.Machine
end

