-- ==== Sys2Proof/WellFormed.lean ====
section
/-! DEFINITION. The argument checks of the commands (30_encoding.md R73, last paragraph). A word that fails one
still decodes; the command then refuses the transaction (R74 (d)). -/

namespace Sys2Proof

/-- The command's own argument check: the CACHE_READ selector is 0 or 1 (R151), a CFG_WRITE value has bits 15:4
clear (R170), a REG_READ index is 0x00 to 0x06 (R171, R29), a STATUS_CLEAR mask has bits 7:5 clear (R172). -/
def Instr.wellFormed : Instr → Bool
  | .decode => true
  | .encode => true
  | .frameBuild => true
  | .rxFragment => true
  | .rxReset => true
  | .cacheRead selector => decide (selector.toNat ≤ 1)
  | .cfgWrite value => decide (value.toNat < 2 ^ 4)
  | .regRead index => decide (index.toNat ≤ 6)
  | .statusClear mask => decide (mask.toNat < 2 ^ 5)

end Sys2Proof
end

