-- ==== Sys2Proof/Safety.lean ====
section
/-! DEFINITION. The terms claims are made in: legal transactions (30_encoding.md R74), the invariant between commands
(10_state.md R36), the runs of a machine, and the spec's own forms of the loops the model writes structurally. -/

namespace Sys2Proof.Machine

/-- A decoded transaction is legal: its argument check holds (R74 (d)), its operand is shorter than 2^32 bytes (c), and
empty unless the command uses it (b). -/
abbrev Legal (i : Instr) (s : State) : Prop :=
  i.wellFormed = true ∧ s.op.length < operandLimit ∧ (i.usesOperand = true ∨ s.op = [])

/-- R36 for the receive state, with R21's type of `rx_expected`: what holds of it between any two commands. -/
abbrev State.rxInv (s : State) : Prop :=
  match s.rxState, s.rxExpected with
  | .awaitingHeader, none => s.rxBuf.length ≤ 5
  | .accumulating, some total =>
    frameHeaderBytes ≤ total ∧ total ≤ s.params.rxCapacity ∧ frameHeaderBytes ≤ s.rxBuf.length ∧ s.rxBuf.length < total
  | _, _ => False

/-- R22: the reserved bits 31:4 of CTRL are 0. -/
abbrev State.ctrlInv (s : State) : Prop := s.ctrl.extractLsb' 4 28 = 0#28

/-- The decoded samples in the cache are whole decoded blocks of 505 samples (R110, R35). -/
abbrev State.cacheInv (s : State) : Prop :=
  match s.cache with
  | some ⟨_, some pcm⟩ => pcm.length % 1010 = 0
  | _ => True

/-- The invariant between commands: the parameters meet R9, CTRL's reserved bits are 0, the receive state meets R36,
and a cached PCM sequence is whole decoded blocks. -/
structure State.Inv (s : State) : Prop where
  params : s.params.wf
  ctrl : s.ctrlInv
  rx : s.rxInv
  cache : s.cacheInv

/-- The event lists of the answers of `n` steps, in order; the run ends early if a step gives no next state. -/
def answers : Nat → State → List (List Event)
  | 0, _ => []
  | n + 1, s =>
    match step s with
    | .next t => t.ev :: answers n t
    | .fault _ => []
    | .refused _ => []

/-- The transactions that deliver fragments in order (R60, R61). -/
def fragmentActions (fragments : List (List Byte)) : List HostAction :=
  fragments.map fun f => .command (encode .rxFragment) f

/-- The events of the fragment that completes a frame with this payload and no excess byte (R140, R149). -/
def completingEvents (payload : List Byte) (s : State) : List Event :=
  [.progress] ++ (if s.rxCompressed && truncated payload then [.error .truncatedBlock] else [])
    ++ [.complete payload (s.decodedPayload payload)]

/-- Whether an event is a COMPLETE. -/
def Event.isComplete : Event → Bool
  | .progress => false
  | .complete _ _ => true
  | .error _ => false

/-- A buffer at which the header loop with RESYNC_SCAN = 1 stops dropping bytes (R141, R142): it is empty, or passes the
marker test and is too short for a header or declares a plausible length. -/
def ScanStops (p : Params) (q : List Byte) : Prop :=
  q = [] ∨ (markerPrefix p q = true ∧ (q.length < 6 ∨ 6 + le32 q 2 ≤ p.rxCapacity))

/-- The report of a FramingError, when one is noted (R140). -/
def framingReport (noted : Bool) : List Event := if noted then [.error .framingError] else []

/-- The state a RX_FRAGMENT leaves when a frame of `total` bytes at the start of the buffer content `q` completes,
written out from R143, R144, R146, R147 and R149. -/
def receivedFrame (s : State) (q : List Byte) (total : Nat) (noted : Bool) : State :=
  let payload := (q.take total).drop 6
  let pcm := if s.rxCompressed then some (pcmBytes (decodeStream s.truncPad payload)) else none
  let excess := decide (total < q.length)
  let partialBlock := s.rxCompressed && decide (payload.length % 256 ≠ 0)
  { s with
    rxBuf := [], rxExpected := none, rxState := .awaitingHeader
    cache := some ⟨payload, pcm⟩, msgCount := s.msgCount + 1#32
    sticky := s.sticky ||| (if noted then 0b00001#5 else 0#5) ||| (if excess then 0b01000#5 else 0#5)
      ||| (if partialBlock then 0b00010#5 else 0#5)
    out := []
    ev := framingReport noted ++ [.progress] ++ (if excess then [.error .excessDiscarded] else [])
      ++ (if partialBlock then [.error .truncatedBlock] else []) ++ [.complete payload pcm] }

/-- The state a refused transaction leaves, written out from R74. -/
def illegalAnswer (s : State) : State :=
  { s with out := [], ev := [.error .illegalCommand], sticky := s.sticky ||| 0b00100#5 }

/-- The running predictor and index after the first `k` codes of a block, code position k in byte 4 + k div 2, low
nibble when k is even (R55, R104). -/
def runningState (block : List Byte) : Nat → Int × Nat
  | 0 => (blockPredictor block, blockIndex block)
  | k + 1 =>
    let b := byteAt block (4 + k / 2)
    let n : Nibble := if k % 2 = 0 then b.extractLsb' 0 4 else b.extractLsb' 4 4
    decodeNibble (runningState block k).1 (runningState block k).2 n

/-- The predictors the encoder holds after each sample, from a running predictor and index (R105, R108). -/
def encoderTrace (pred : Int) (idx : Nat) : List Int → List Int
  | [] => []
  | sample :: samples =>
    let r := encodeSample pred idx sample
    r.2.1 :: encoderTrace r.2.1 r.2.2 samples

/-- The predictor and index the encoder holds after the last sample (R105). -/
def encoderEnd (pred : Int) (idx : Nat) : List Int → Int × Nat
  | [] => (pred, idx)
  | sample :: samples =>
    let r := encodeSample pred idx sample
    encoderEnd r.2.1 r.2.2 samples

/-- A 16-bit sample value (R53). -/
abbrev InSampleRange (v : Int) : Prop := -32768 ≤ v ∧ v ≤ 32767

/-- The `while` of R140: leading bytes dropped until the buffer is empty or passes the marker test. -/
def scanWhile (p : Params) : List Byte → List Byte × Bool
  | [] => ([], false)
  | b :: q => if markerPrefix p (b :: q) then (b :: q, false) else ((scanWhile p q).1, true)

/-- The `loop` of R140 as the pseudocode writes it, run for at most `fuel` iterations from the buffer `q` and the
flag `framing`; `none` when it is still running then. -/
def headerLoop (scan : Bool) (p : Params) : Nat → List Byte → Bool → Option HeaderResult
  | 0, _, _ => none
  | fuel + 1, q, framing =>
    let r := if scan then scanWhile p q else (q, false)
    let kept := r.1
    let noted := framing || r.2
    if kept.length < frameHeaderBytes then some ⟨kept, none, noted⟩
    else if p.rxCapacity < declaredTotal kept then
      if scan then headerLoop scan p fuel (kept.drop 1) true else some ⟨[], none, true⟩
    else some ⟨kept, some (declaredTotal kept), noted⟩

end Sys2Proof.Machine
end

