-- ==== Sys2Proof/Certificates/Slice0/Obligations.lean ====
section
/-! DEFINITION. The statements for the provers, from the numbered rules of spec/. -/

open Sys2Proof Sys2Proof.Machine

/-! ### The command word -/

/-- R72, R73: the decoder reads back every command, with every argument value, from its word. -/
def Obligations.DecodeReadsBackEveryCommand : Prop :=
  ∀ i : Instr, decode (encode i) = .ok i

/-- R71, R73: a command has one word: a word that decodes is the word of what it decodes to. -/
def Obligations.EveryCommandHasOneWord : Prop :=
  ∀ (w : Word) (i : Instr), decode w = .ok i → encode i = w

/-- R73, the match and mask table, row by row with the argument fields of R72. -/
def Obligations.WordSelectsRowByMatchAndMask : Prop :=
  ∀ w : Word,
    (decode w = .ok .decode ↔ w &&& 0xFFFFFFFF#32 = 0x00000001#32) ∧
    (decode w = .ok .encode ↔ w &&& 0xFFFFFFFF#32 = 0x00000002#32) ∧
    (decode w = .ok .frameBuild ↔ w &&& 0xFFFFFFFF#32 = 0x00000003#32) ∧
    (decode w = .ok .rxFragment ↔ w &&& 0xFFFFFFFF#32 = 0x00000004#32) ∧
    (decode w = .ok .rxReset ↔ w &&& 0xFFFFFFFF#32 = 0x00000005#32) ∧
    (∀ a : Byte, decode w = .ok (.cacheRead a) ↔
      w &&& 0xFFFF00FF#32 = 0x00000006#32 ∧ a.toNat = w.toNat / 2 ^ 8 % 2 ^ 8) ∧
    (∀ v : Half, decode w = .ok (.cfgWrite v) ↔
      w &&& 0x0000FFFF#32 = 0x00000010#32 ∧ v.toNat = w.toNat / 2 ^ 16) ∧
    (∀ a : Byte, decode w = .ok (.regRead a) ↔
      w &&& 0xFFFF00FF#32 = 0x00000011#32 ∧ a.toNat = w.toNat / 2 ^ 8 % 2 ^ 8) ∧
    (∀ a : Byte, decode w = .ok (.statusClear a) ↔
      w &&& 0xFFFF00FF#32 = 0x00000012#32 ∧ a.toNat = w.toNat / 2 ^ 8 % 2 ^ 8)

/-- R73 and the words of 95_test_vectors.md: a sanity statement on written-out words. -/
def Obligations.WrittenOutWordsDecode : Prop :=
  decode 0x00000001#32 = .ok .decode ∧ decode 0x00000002#32 = .ok .encode ∧
  decode 0x00000003#32 = .ok .frameBuild ∧ decode 0x00000004#32 = .ok .rxFragment ∧
  decode 0x00000005#32 = .ok .rxReset ∧ decode 0x00000106#32 = .ok (.cacheRead 1#8) ∧
  decode 0x00040010#32 = .ok (.cfgWrite 0x0004#16) ∧ decode 0x00000611#32 = .ok (.regRead 6#8) ∧
  decode 0x00001F12#32 = .ok (.statusClear 0x1F#8) ∧ decode 0x00000101#32 = .error (.arg8NotZero 0x01#8)

/-- R76: the pseudo-commands stand for the lines the spec expands them to. -/
def Obligations.PseudoCommandsExpand : Prop :=
  ∀ (p : Params) (q : AsmOperand),
    AsmLine.statusClearAll.action p = (AsmLine.command (.statusClear 0x1F#8) (.bytes [])).action p ∧
    AsmLine.cfgDefault.action p = (AsmLine.command (.cfgWrite 0x0005#16) (.bytes [])).action p ∧
    (AsmLine.rxFrame q).action p =
      (AsmLine.command .rxFragment
        (.cat (.cat (.bytes [.s0, .s1])
          (.bytes ((u32le (BitVec.ofNat 32 (q.value p).length)).map .lit))) q)).action p

/-! ### Steps and transactions -/

/-- R60, R70: when the next transaction's word decodes, the step is the command on that operand. -/
def Obligations.StepRunsDecodedCommand : Prop :=
  ∀ (s : State) (w : Word) (op : List Byte) (rest : List HostAction) (i : Instr),
    s.inbox = .command w op :: rest → decode w = .ok i →
    step s = exec i { s with inbox := rest, op := op }

/-- R74: a transaction that is illegal for one of the reasons (a) to (d) sets ILLEGAL_CMD, answers
ERROR(IllegalCommand) with an empty OUT, and changes nothing else. -/
def Obligations.IllegalTransactionIsRefused : Prop :=
  ∀ (s : State) (w : Word) (op : List Byte) (rest : List HostAction),
    s.inbox = .command w op :: rest →
    ((∀ i, decode w ≠ .ok i) ∨
      ∃ i, decode w = .ok i ∧
        ((i.usesOperand = false ∧ op ≠ []) ∨ 2 ^ 32 ≤ op.length ∨ i.wellFormed = false)) →
    step s = .next { s with
      inbox := rest, op := op, out := [], ev := [.error .illegalCommand], sticky := s.sticky ||| 0b00100#5 }

/-- R75: a reserved opcode is refused whatever the other bits are, and has no other effect. -/
def Obligations.ReservedOpcodeIsRefused : Prop :=
  ∀ (s : State) (w : Word) (op : List Byte) (rest : List HostAction),
    s.inbox = .command w op :: rest →
    (w.toNat % 2 ^ 8 = 0 ∨ (0x07 ≤ w.toNat % 2 ^ 8 ∧ w.toNat % 2 ^ 8 ≤ 0x0F) ∨ 0x13 ≤ w.toNat % 2 ^ 8) →
    step s = .next { s with
      inbox := rest, op := op, out := [], ev := [.error .illegalCommand], sticky := s.sticky ||| 0b00100#5 }

/-- R74, R207: a legal command is never reported illegal and does not set ILLEGAL_CMD. -/
def Obligations.LegalCommandIsNotRefused : Prop :=
  ∀ (i : Instr) (s : State), Legal i s →
    ∃ t, exec i s = .next t ∧ Event.error .illegalCommand ∉ t.ev ∧
      (t.sticky.getLsbD 2 = true → s.sticky.getLsbD 2 = true)

/-- R204, R237: no step stops the machine. -/
def Obligations.EveryStepCompletes : Prop :=
  ∀ s : State, ∃ t, step s = .next t

/-- R15, R214, read as log 2 says (the model's choice): with nothing pending a step changes nothing. -/
def Obligations.IdleStepHoldsTheState : Prop :=
  ∀ s : State, s.inbox = [] → step s = .next s

/-- R20, R231: no step changes SYNC_MARKER or RX_CAPACITY, and a step takes at most the host's next action (R60). -/
def Obligations.StepKeepsParameters : Prop :=
  ∀ s t : State, step s = .next t → t.params = s.params ∧ t.inbox = s.inbox.tail

/-! ### Reset and the invariant between commands -/

/-- R230, R232 (as host actions; log 4): a reset gives every piece of state its reset value; the transaction it cancels has no effect and
returns no OUT and no EV. -/
def Obligations.ResetSetsEveryStateValue : Prop :=
  ∀ (s : State) (c : Option (Word × List Byte)) (rest : List HostAction), s.inbox = .reset c :: rest →
    ∃ t, step s = .next t ∧ t.ctrl = 0x00000005#32 ∧ t.rxCompressed = true ∧ t.txCompressed = false ∧
      t.resyncScan = true ∧ t.truncPad = false ∧ t.status = 0#32 ∧ t.rxState = .awaitingHeader ∧ t.rxBuf = [] ∧
      t.rxExpected = none ∧ t.cache = none ∧ t.msgCount = 0#32 ∧ t.params = s.params ∧
      (∀ tx, c = some tx → t.out = [] ∧ t.ev = [])

/-- R230: the state the machine starts in. -/
def Obligations.StartStateHoldsResetValues : Prop :=
  State.reset.ctrl = 0x00000005#32 ∧ State.reset.status = 0#32 ∧ State.reset.rxState = .awaitingHeader ∧
  State.reset.rxBuf = [] ∧ State.reset.rxExpected = none ∧ State.reset.cache = none ∧ State.reset.msgCount = 0#32

/-- R36, R22, R9: the state after reset meets the invariant, whatever the parameters are. -/
def Obligations.ResetMeetsInvariant : Prop := State.reset.Inv

/-- R36 with R21, R22: every step keeps the invariant between commands. -/
def Obligations.StepKeepsInvariant : Prop :=
  ∀ s t : State, s.Inv → step s = .next t → t.Inv

/-- R36: after a RX_FRAGMENT with RESYNC_SCAN = 1 that waits for a header, the buffer is a prefix of the marker test. -/
def Obligations.ScannedBufferIsMarkerPrefix : Prop :=
  ∀ s t : State, s.op.length < 2 ^ 32 → s.resyncScan = true → exec .rxFragment s = .next t →
    t.rxState = .awaitingHeader → t.rxBuf = [] ∨ markerPrefix t.params t.rxBuf = true

/-! ### Errors, events and status -/

/-- R23: RX_STATE in bits 1:0 follows `rx_state`, the sticky bits stand in 12:8, the other bits read as 0. -/
def Obligations.StatusRegisterLayout : Prop :=
  ∀ s : State,
    s.status.toNat % 2 ^ 8 = (if s.rxState = .accumulating then 1 else 0) ∧
    s.status.toNat / 2 ^ 8 = s.sticky.toNat

/-- R23: no command other than STATUS_CLEAR clears a sticky bit. -/
def Obligations.OnlyStatusClearClearsStickyBits : Prop :=
  ∀ (i : Instr) (s t : State), exec i s = .next t → (∀ m, i ≠ .statusClear m) →
    ∀ k, s.sticky.getLsbD k = true → t.sticky.getLsbD k = true

/-- R22, R29: only CFG_WRITE writes CTRL. -/
def Obligations.OnlyCfgWriteWritesCtrl : Prop :=
  ∀ (i : Instr) (s t : State), exec i s = .next t → (∀ v, i ≠ .cfgWrite v) → t.ctrl = s.ctrl

/-- R21 (written by), R100, R58: only RX_FRAGMENT and RX_RESET change the receive state and the cache, and only
RX_FRAGMENT changes MSG_COUNT. -/
def Obligations.OnlyReceiveCommandsWriteReceiveState : Prop :=
  ∀ (i : Instr) (s t : State), exec i s = .next t → i ≠ .rxFragment →
    t.msgCount = s.msgCount ∧
    (i ≠ .rxReset → t.rxState = s.rxState ∧ t.rxBuf = s.rxBuf ∧ t.rxExpected = s.rxExpected ∧ t.cache = s.cache)

/-- R202, R200: an ERROR event of a command sets the STATUS bit of its code (7 + code), and a STATUS sticky bit that a
command sets newly is reported by its ERROR event. -/
def Obligations.ErrorEventsAndStickyBitsAgree : Prop :=
  ∀ (i : Instr) (s t : State), exec i s = .next t →
    (∀ k : ErrorKind, Event.error k ∈ t.ev → t.status.getLsbD (7 + k.code.toNat) = true) ∧
    (∀ b, 8 ≤ b → t.status.getLsbD b = true → s.status.getLsbD b = false →
      ∃ k : ErrorKind, b = 7 + k.code.toNat ∧ Event.error k ∈ t.ev)

/-- R207: each kind of error is reported at most once in a command. -/
def Obligations.EachErrorReportedAtMostOnce : Prop :=
  ∀ (i : Instr) (s t : State), exec i s = .next t → ∀ k : ErrorKind, t.ev.count (.error k) ≤ 1

/-- R26: MSG_COUNT, register 0x04, counts the COMPLETE events, modulo 2^32, from 0 at reset; no command clears it. -/
def Obligations.MessageCountCountsCompletions : Prop :=
  State.reset.msgCount = 0#32 ∧ (∀ s : State, s.register 0x04#8 = s.msgCount) ∧
  ∀ (i : Instr) (s t : State), exec i s = .next t →
    t.msgCount.toNat = (s.msgCount.toNat + t.ev.countP Event.isComplete) % 2 ^ 32

/-! ### Codec -/

/-- R53: sample i of a PCM byte sequence is the little-endian 16-bit value at offset 2i, and samples that are written
read back. -/
def Obligations.PcmSamplesAreLittleEndian : Prop :=
  (∀ (q : List Byte) (i : Nat), 2 * i + 1 < q.length →
    (samplesOf q)[i]? = some (sext16 (le16 q (2 * i)))) ∧
  (∀ q : List Byte, (samplesOf q).length = q.length / 2) ∧
  (∀ l : List Int, (∀ v ∈ l, InSampleRange v) → samplesOf (pcmBytes l) = l)

/-- R101: one decoder step, in the arithmetic of the rule's pseudocode. -/
def Obligations.DecodeNibbleStep : Prop :=
  ∀ (pred : Int) (idx : Nat) (n : Nibble), InSampleRange pred → idx ≤ 88 →
    ∃ (step : Nat) (delta diff : Int), stepTable[idx]? = some step ∧ indexTable[n.toNat]? = some delta ∧
      diff = step / 8 + (if n.toNat % 2 = 1 then step / 4 else 0 : Nat)
        + (if n.toNat / 2 % 2 = 1 then step / 2 else 0 : Nat) + (if n.toNat / 4 % 2 = 1 then step else 0 : Nat) ∧
      (decodeNibble pred idx n).1 = max (-32768) (min 32767 (if 8 ≤ n.toNat then pred - diff else pred + diff)) ∧
      ((decodeNibble pred idx n).2 : Int) = max 0 (min 88 (idx + delta))

/-- R37, R103 (the bounds rest on the table of log 6): the running values stay in range, and the unclamped predictor fits
the width R103 gives. -/
def Obligations.DecodeNibbleStaysInRange : Prop :=
  ∀ (pred : Int) (idx : Nat) (n : Nibble), InSampleRange pred → idx ≤ 88 →
    InSampleRange (decodeNibble pred idx n).1 ∧ (decodeNibble pred idx n).2 ≤ 88 ∧
    codeMagnitude (stepAt idx) n ≤ 61436 ∧
    -94204 ≤ pred - codeMagnitude (stepAt idx) n ∧ pred + codeMagnitude (stepAt idx) n ≤ 94203

/-- R102 (the spec's own quantizer; log 7): the encoder's code, bit by bit, and its update by the decoder step of the
code it chose. -/
def Obligations.EncodeSampleQuantizes : Prop :=
  ∀ (pred : Int) (idx : Nat) (v : Int), InSampleRange pred → idx ≤ 88 → InSampleRange v →
    ∃ (step d0 d1 d2 : Nat) (c : Nibble), stepTable[idx]? = some step ∧ encodeSample pred idx v = (c, decodeNibble pred idx c) ∧
      d0 = (v - pred).natAbs ∧
      d1 = (if step ≤ d0 then d0 - step else d0) ∧
      d2 = (if step / 2 ≤ d1 then d1 - step / 2 else d1) ∧
      (c.toNat / 8 = if v < pred then 1 else 0) ∧
      (c.toNat / 4 % 2 = if step ≤ d0 then 1 else 0) ∧
      (c.toNat / 2 % 2 = if step / 2 ≤ d1 then 1 else 0) ∧
      (c.toNat % 2 = if step / 4 ≤ d2 then 1 else 0)

/-- R104, R55: a block decodes to 505 samples, the header's predictor and then one for each code in the order of R55. -/
def Obligations.DecodeBlockGivesEverySample : Prop :=
  ∀ block : List Byte, block.length = 256 →
    (decodeBlock block).length = 505 ∧
    (decodeBlock block)[0]? = some (sext16 (le16 block 0)) ∧
    (runningState block 0).2 = min (byteAt block 2).toNat 88 ∧
    ∀ k, k ≤ 504 → (decodeBlock block)[k]? = some (runningState block k).1

/-- R104, R79: the decoder ignores the RESERVED byte, and a STEP_INDEX above 88 decodes as 88. -/
def Obligations.DecoderIgnoresReservedAndClampsIndex : Prop :=
  ∀ (block : List Byte) (x : Byte), block.length = 256 →
    decodeBlock (block.set 3 x) = decodeBlock block ∧
    (88 ≤ x.toNat → decodeBlock (block.set 2 x) = decodeBlock (block.set 2 88#8))

/-- R106, R57: a stream decodes block by block, and the trailing partial block is dropped or padded by TRUNC_PAD. -/
def Obligations.DecodeStreamGoesBlockByBlock : Prop :=
  ∀ (pad : Bool) (block q : List Byte),
    (block.length = 256 → decodeStream pad (block ++ q) = decodeBlock block ++ decodeStream pad q) ∧
    (0 < q.length → q.length < 256 →
      decodeStream false q = [] ∧ decodeStream true q = decodeBlock (q ++ zeros (256 - q.length))) ∧
    decodeStream pad [] = []

/-- R105, R79: the layout of an encoded block. -/
def Obligations.EncodeBlockLayout : Prop :=
  ∀ (first : Int) (samples : List Int), samples.length + 1 ≤ 504 →
    (encodeBlock (first :: samples)).length = 256 ∧
    (encodeBlock (first :: samples)).take 4 = u16le first ++ [0#8, 0#8] ∧
    (∀ k, k < samples.length →
      (blockCodes (encodeBlock (first :: samples)))[k]? = (encodeCodes first 0 samples)[k]?) ∧
    (∀ k, samples.length ≤ k → k < 504 → (blockCodes (encodeBlock (first :: samples)))[k]? = some 0#4)

/-- R107, R53: ENCODE's stream is the blocks of the operand's samples, an odd last byte forming none; by samples and by
bytes it is encoded 504 samples a block, the rest in a last block, nothing for no sample. -/
def Obligations.EncodeStreamGoesBlockByBlock : Prop :=
  (∀ q : List Byte, encodeStream q = encodeBlocks (samplesOf q) ∧
    (encodeStream q).length = 256 * ((q.length / 2 + 503) / 504)) ∧
  (∀ q1 q2 : List Byte,
    (q1.length = 1008 → encodeStream (q1 ++ q2) = encodeBlock (samplesOf q1) ++ encodeStream q2) ∧
    (2 ≤ q1.length → q1.length ≤ 1009 → encodeStream q1 = encodeBlock (samplesOf q1)) ∧
    (q1.length < 2 → encodeStream q1 = [])) ∧
  ∀ s1 s2 : List Int,
    (s1.length = 504 → encodeBlocks (s1 ++ s2) = encodeBlock s1 ++ encodeBlocks s2) ∧
    (0 < s1.length → s1.length ≤ 504 → encodeBlocks s1 = encodeBlock s1) ∧
    encodeBlocks [] = [] ∧
    (encodeBlocks s1).length = 256 * ((s1.length + 503) / 504)

/-- R108 (a consequence of R101 to R105): the decoder follows the encoder. Sample 0 is the first input sample, sample j the predictor the encoder held
after input sample j, and the others come from the zero padding codes. -/
def Obligations.DecoderFollowsEncoder : Prop :=
  ∀ (first : Int) (samples : List Int), samples.length + 1 ≤ 504 → InSampleRange first →
    (∀ v ∈ samples, InSampleRange v) →
    decodeBlock (encodeBlock (first :: samples)) =
      first :: encoderTrace first 0 samples ++
        decodeCodes (encoderEnd first 0 samples).1 (encoderEnd first 0 samples).2
          (List.replicate (504 - samples.length) 0#4)

/-- R109: decoding an encoded stream gives 505 samples a block in both settings of TRUNC_PAD, not the number that was
encoded. -/
def Obligations.RoundTripSampleCount : Prop :=
  ∀ (pad : Bool) (q : List Byte),
    (decodeStream pad (encodeStream q)).length = 505 * ((q.length / 2 + 503) / 504)

/-- R112 (with the tables of log 6 and, for the example, the quantizer of log 7): from predictor 0 and index 0 the largest
first step is 11. So in a block whose first samples are 0 and v, sample 1 decodes to at most 11 in magnitude, and its error
is at least |v| - 11; for v = 32767 it is 32756. -/
def Obligations.FirstStepFromZeroIsAtMostEleven : Prop :=
  (∀ n : Nibble, (decodeNibble 0 0 n).1.natAbs ≤ 11) ∧ (decodeNibble 0 0 7#4).1 = 11 ∧
  (∀ (v : Int) (samples : List Int), InSampleRange v → samples.length + 2 ≤ 504 →
    ∃ d, (decodeBlock (encodeBlock (0 :: v :: samples)))[1]? = some d ∧ d.natAbs ≤ 11 ∧
      v.natAbs ≤ (v - d).natAbs + 11) ∧
  (decodeBlock (encodeBlock [0, 32767])).take 2 = [0, 11] ∧ (32767 : Int) - 11 = 32756 ∧
  encodeCodes 0 0 [32767] = [7#4]

/-- R110: DECODE: its word, the refusal of an operand too long, and with any other operand its whole effect. -/
def Obligations.DecodeAnswersDecodedSamples : Prop :=
  encode .decode = 0x00000001#32 ∧
  (∀ (s : State), 2 ^ 32 ≤ s.op.length → exec .decode s = .next (illegalAnswer s)) ∧
  ∀ s : State, s.op.length < 2 ^ 32 →
    exec .decode s = .next { s with
      out := pcmBytes (decodeStream s.truncPad s.op)
      ev := if s.op.length % 256 ≠ 0 then [.error .truncatedBlock] else []
      sticky := if s.op.length % 256 ≠ 0 then s.sticky ||| 0b00010#5 else s.sticky }

/-- R110: OUT has 1010 bytes for each decoded block. -/
def Obligations.DecodeOutputLength : Prop :=
  ∀ s : State, s.op.length < 2 ^ 32 →
    ∃ t, exec .decode s = .next t ∧
      t.out.length = 1010 * (s.op.length / 256 + (if s.op.length % 256 ≠ 0 ∧ s.truncPad = true then 1 else 0))

/-- R111: ENCODE: its word, the refusal of an operand too long, and with any other operand its whole effect. -/
def Obligations.EncodeAnswersEncodedBlocks : Prop :=
  encode .encode = 0x00000002#32 ∧
  (∀ (s : State), 2 ^ 32 ≤ s.op.length → exec .encode s = .next (illegalAnswer s)) ∧
  ∀ s : State, s.op.length < 2 ^ 32 →
    exec .encode s = .next { s with
      out := encodeStream s.op
      ev := if s.op.length % 2 = 1 then [.error .oddByte] else []
      sticky := if s.op.length % 2 = 1 then s.sticky ||| 0b10000#5 else s.sticky }

/-! ### Frame builder -/

/-- R130, R131: FRAME_BUILD: its word, the refusal of an operand too long, and in both settings of TX_COMPRESSED its whole
effect, with the length of an encoded payload. -/
def Obligations.FrameBuildAnswersFrame : Prop :=
  encode .frameBuild = 0x00000003#32 ∧
  (∀ (s : State), 2 ^ 32 ≤ s.op.length → exec .frameBuild s = .next (illegalAnswer s)) ∧
  ∀ s : State, s.op.length < 2 ^ 32 →
    (s.txCompressed = false →
      exec .frameBuild s = .next { s with
        out := [s.params.sync0, s.params.sync1] ++ u32le (BitVec.ofNat 32 s.op.length) ++ s.op, ev := [] }) ∧
    (s.txCompressed = true →
      (encodeStream s.op).length = 256 * ((s.op.length / 2 + 503) / 504) ∧ (encodeStream s.op).length < 2 ^ 32 ∧
      exec .frameBuild s = .next { s with
        out := [s.params.sync0, s.params.sync1] ++ u32le (BitVec.ofNat 32 (encodeStream s.op).length)
          ++ encodeStream s.op
        ev := if s.op.length % 2 = 1 then [.error .oddByte] else []
        sticky := if s.op.length % 2 = 1 then s.sticky ||| 0b10000#5 else s.sticky })

/-- R130, R78: the length field of every frame FRAME_BUILD makes is the length of what follows the header. -/
def Obligations.FrameLengthFieldIsAuthoritative : Prop :=
  ∀ s : State, s.op.length < 2 ^ 32 →
    ∃ t, exec .frameBuild s = .next t ∧ t.out.length = 6 + le32 t.out 2 ∧
      (s.txCompressed = true → le32 t.out 2 = 256 * ((s.op.length / 2 + 503) / 504))

/-! ### Receive reassembler -/

/-- R237: the header loop as R140 writes it ends within one more iteration than the buffer has bytes, with the model's
result. -/
def Obligations.HeaderLoopEndsAsWritten : Prop :=
  ∀ (scan : Bool) (p : Params) (q : List Byte),
    headerLoop scan p (q.length + 1) q false = some (parseHeader scan p q)

/-- R140, R143: a fragment that does not finish the frame is appended and answered with PROGRESS alone. -/
def Obligations.FragmentAccumulates : Prop :=
  ∀ (s : State) (total : Nat), s.op.length < 2 ^ 32 → s.rxState = .accumulating → s.rxExpected = some total →
    (s.rxBuf ++ s.op).length < total →
    exec .rxFragment s = .next { s with rxBuf := s.rxBuf ++ s.op, out := [], ev := [.progress] }

/-- R143, R144, R146, R147: the fragment that finishes the frame completes it, with the whole effect. -/
def Obligations.FragmentCompletesFrame : Prop :=
  ∀ (s : State) (total : Nat), s.op.length < 2 ^ 32 → s.rxState = .accumulating → s.rxExpected = some total →
    total ≤ (s.rxBuf ++ s.op).length →
    exec .rxFragment s = .next (receivedFrame s (s.rxBuf ++ s.op) total false)

/-- R142 with RESYNC_SCAN = 0: a short buffer waits, an implausible length clears the buffer with a FramingError, and a
plausible one is taken as the header of the frame, the marker bytes unexamined. -/
def Obligations.TrustedHeaderPhase : Prop :=
  ∀ s : State, s.op.length < 2 ^ 32 → s.rxState = .awaitingHeader → s.resyncScan = false →
    let q := s.rxBuf ++ s.op
    let total := 6 + le32 q 2
    (q.length < 6 → exec .rxFragment s = .next { s with rxBuf := q, out := [], ev := [.progress] }) ∧
    (6 ≤ q.length → s.params.rxCapacity < total →
      exec .rxFragment s = .next { s with
        rxBuf := [], sticky := s.sticky ||| 0b00001#5, out := [], ev := [.error .framingError, .progress] }) ∧
    (6 ≤ q.length → total ≤ s.params.rxCapacity → q.length < total →
      exec .rxFragment s = .next { s with
        rxBuf := q, rxExpected := some total, rxState := .accumulating, out := [], ev := [.progress] }) ∧
    (6 ≤ q.length → total ≤ s.params.rxCapacity → total ≤ q.length →
      exec .rxFragment s = .next (receivedFrame s q total false))

/-- R141, R142 with RESYNC_SCAN = 1: with `d` the least number of leading bytes to drop until the scan stops, the
command goes on from what is left, with a FramingError exactly when a byte was dropped. -/
def Obligations.ScannedHeaderPhase : Prop :=
  ∀ (s : State) (d : Nat), s.op.length < 2 ^ 32 → s.rxState = .awaitingHeader → s.resyncScan = true →
    d ≤ (s.rxBuf ++ s.op).length → ScanStops s.params ((s.rxBuf ++ s.op).drop d) →
    (∀ j, j < d → ¬ ScanStops s.params ((s.rxBuf ++ s.op).drop j)) →
    let r := (s.rxBuf ++ s.op).drop d
    let noted := decide (0 < d)
    let total := 6 + le32 r 2
    let sticky := s.sticky ||| (if noted then 0b00001#5 else 0#5)
    (r.length < 6 →
      exec .rxFragment s = .next { s with
        rxBuf := r, sticky := sticky, out := [], ev := framingReport noted ++ [.progress] }) ∧
    (6 ≤ r.length → r.length < total →
      exec .rxFragment s = .next { s with
        rxBuf := r, rxExpected := some total, rxState := .accumulating, sticky := sticky, out := []
        ev := framingReport noted ++ [.progress] }) ∧
    (6 ≤ r.length → total ≤ r.length →
      exec .rxFragment s = .next (receivedFrame s r total noted))

/-- R148, R149: every RX_FRAGMENT that is not refused answers one PROGRESS, and its events stand in the order of R149. -/
def Obligations.FragmentEventOrder : Prop :=
  ∀ s : State, s.op.length < 2 ^ 32 →
    ∃ (t : State) (framing excess partialBlock : Bool) (completion : List Event),
      exec .rxFragment s = .next t ∧ t.out = [] ∧
      t.ev = framingReport framing ++ [.progress] ++ (if excess then [.error .excessDiscarded] else [])
        ++ (if partialBlock then [.error .truncatedBlock] else []) ++ completion ∧
      ((completion = [] ∧ excess = false ∧ partialBlock = false) ∨ ∃ p d, completion = [.complete p d])

/-- R140, corner case: an empty fragment emits PROGRESS and changes no state, but for a buffer that RESYNC_SCAN = 0 left
and the scan now trims. -/
def Obligations.EmptyFragmentChangesNothing : Prop :=
  ∀ s : State, s.Inv → s.op = [] →
    (s.resyncScan = false ∨ s.rxState = .accumulating ∨ s.rxBuf = [] ∨ markerPrefix s.params s.rxBuf = true) →
    exec .rxFragment s = .next { s with out := [], ev := [.progress] }

/-- R142, R143, R144, R146, R205: a COMPLETE event carries what the cache now holds, the machine has re-armed, and the
payload is a whole frame's: 6 header bytes and its own bytes had arrived. -/
def Obligations.CompletionIsCachedAndWhole : Prop :=
  ∀ (s t : State) (p : List Byte) (d : Option (List Byte)), s.Inv → exec .rxFragment s = .next t →
    Event.complete p d ∈ t.ev →
    t.cache = some ⟨p, d⟩ ∧ t.msgCount = s.msgCount + 1#32 ∧ t.rxState = .awaitingHeader ∧ t.rxBuf = [] ∧
    t.rxExpected = none ∧ d.isSome = s.rxCompressed ∧
    6 + p.length ≤ s.rxBuf.length + s.op.length ∧ 6 + p.length ≤ s.params.rxCapacity ∧
    (∀ total, s.rxExpected = some total → 6 + p.length = total)

/-- R145: a frame split in any way into fragments completes exactly once, on the fragment with its last byte, with its
payload, and with no FramingError and no ExcessDiscarded. -/
def Obligations.AnySplitCompletesOnce : Prop :=
  ∀ (s : State) (payload : List Byte) (before after : List (List Byte)) (last : List Byte) (rest : List HostAction),
    s.params.wf → s.rxState = .awaitingHeader → s.rxExpected = none → s.rxBuf = [] →
    6 + payload.length ≤ s.params.rxCapacity →
    (before ++ last :: after).flatten =
      [s.params.sync0, s.params.sync1] ++ u32le (BitVec.ofNat 32 payload.length) ++ payload →
    before.flatten.length < 6 + payload.length →
    6 + payload.length ≤ before.flatten.length + last.length →
    s.inbox = fragmentActions (before ++ last :: after) ++ rest →
    answers (before ++ last :: after).length s =
      List.replicate before.length [.progress] ++ [completingEvents payload s] ++
        List.replicate after.length [.progress]

/-- R132: what FRAME_BUILD answers, delivered in any split, completes exactly once with its payload. -/
def Obligations.BuiltFrameIsReceivedOnce : Prop :=
  ∀ (u b s : State) (fragments : List (List Byte)) (rest : List HostAction),
    u.op.length < 2 ^ 32 → exec .frameBuild u = .next b → s.params = u.params → s.params.wf →
    s.rxState = .awaitingHeader → s.rxExpected = none → s.rxBuf = [] → b.out.length ≤ s.params.rxCapacity →
    fragments.flatten = b.out → s.inbox = fragmentActions fragments ++ rest →
    (answers fragments.length s).flatten.filter Event.isComplete =
      [.complete (b.out.drop 6) (s.decodedPayload (b.out.drop 6))]

/-- R150: RX_RESET: its word, the refusal of an operand, and its whole effect in every state. -/
def Obligations.RxResetClearsReceiveState : Prop :=
  encode .rxReset = 0x00000005#32 ∧
  (∀ (s : State), s.op ≠ [] → exec .rxReset s = .next (illegalAnswer s)) ∧
  ∀ s : State, s.op = [] →
    exec .rxReset s = .next { s with
      rxBuf := [], rxExpected := none, rxState := .awaitingHeader, cache := none, out := [], ev := [] }

/-- R151: CACHE_READ: its word, the refusals, and its whole effect for both selectors. -/
def Obligations.CacheReadReturnsCachedBytes : Prop :=
  (∀ sel : Byte, (encode (.cacheRead sel)).toNat = 0x06 + 2 ^ 8 * sel.toNat) ∧
  (∀ (s : State) (sel : Byte), s.op ≠ [] → exec (.cacheRead sel) s = .next (illegalAnswer s)) ∧
  ∀ s : State, s.op = [] →
    (s.cache = none → ∀ sel : Byte, sel.toNat ≤ 1 → exec (.cacheRead sel) s = .next { s with out := [], ev := [] }) ∧
    (∀ p d, s.cache = some ⟨p, d⟩ → exec (.cacheRead 0#8) s = .next { s with out := p, ev := [] }) ∧
    (∀ p d, s.cache = some ⟨p, some d⟩ → exec (.cacheRead 1#8) s = .next { s with out := d, ev := [] }) ∧
    (∀ p, s.cache = some ⟨p, none⟩ → exec (.cacheRead 1#8) s = .next { s with out := [], ev := [] }) ∧
    (∀ sel : Byte, 1 < sel.toNat → exec (.cacheRead sel) s = .next { s with
      out := [], ev := [.error .illegalCommand], sticky := s.sticky ||| 0b00100#5 })

/-! ### Control commands -/

/-- R170: CFG_WRITE: its word; it stores the value, field by field, and leaves all else; a value with a reserved bit, or an
operand, is refused. -/
def Obligations.CfgWriteStoresValue : Prop :=
  (∀ v : Half, (encode (.cfgWrite v)).toNat = 0x10 + 2 ^ 16 * v.toNat) ∧
  (∀ (s : State) (v : Half), s.op ≠ [] → exec (.cfgWrite v) s = .next (illegalAnswer s)) ∧
  ∀ (s : State) (v : Half), s.op = [] →
    (v.toNat < 16 → ∃ t, exec (.cfgWrite v) s = .next t ∧
      t = { s with ctrl := t.ctrl, out := [], ev := [] } ∧ t.ctrl.toNat = v.toNat ∧
      t.rxCompressed = v.getLsbD 0 ∧ t.txCompressed = v.getLsbD 1 ∧ t.resyncScan = v.getLsbD 2 ∧
      t.truncPad = v.getLsbD 3) ∧
    (16 ≤ v.toNat → exec (.cfgWrite v) s = .next { s with
      out := [], ev := [.error .illegalCommand], sticky := s.sticky ||| 0b00100#5 })

/-- R171: REG_READ: its word; it returns the register as 4 little-endian bytes and changes nothing; a reserved index, or an
operand, is refused. -/
def Obligations.RegReadReturnsRegister : Prop :=
  (∀ index : Byte, (encode (.regRead index)).toNat = 0x11 + 2 ^ 8 * index.toNat) ∧
  (∀ (s : State) (index : Byte), s.op ≠ [] → exec (.regRead index) s = .next (illegalAnswer s)) ∧
  ∀ (s : State) (index : Byte), s.op = [] →
    (index.toNat ≤ 6 → ∃ (t : State) (v : Word), exec (.regRead index) s = .next t ∧
      t = { s with out := t.out, ev := [] } ∧ t.out.length = 4 ∧ le32 t.out 0 = v.toNat ∧
      (index = 0x00#8 → v = s.ctrl) ∧ (index = 0x01#8 → v = s.status) ∧
      (index = 0x02#8 → v = BitVec.ofNat 32 s.rxBuf.length) ∧
      (index = 0x03#8 → v = match s.rxExpected with | some total => BitVec.ofNat 32 total | none => 0#32) ∧
      (index = 0x04#8 → v = s.msgCount) ∧ (index = 0x05#8 → v = BitVec.ofNat 32 s.params.rxCapacity) ∧
      (index = 0x06#8 → v.toNat = s.params.sync0.toNat + 256 * s.params.sync1.toNat)) ∧
    (7 ≤ index.toNat → exec (.regRead index) s = .next { s with
      out := [], ev := [.error .illegalCommand], sticky := s.sticky ||| 0b00100#5 })

/-- R24, R25, R36: under the invariant RX_COUNT and RX_EXPECTED fit their 32 bits. -/
def Obligations.ReceiveCountersFitTheirRegisters : Prop :=
  ∀ s : State, s.Inv →
    (s.register 0x02#8).toNat = s.rxBuf.length ∧ (s.register 0x03#8).toNat = s.rxExpected.getD 0 ∧
    (s.register 0x05#8).toNat = s.params.rxCapacity ∧ s.rxBuf.length < s.params.rxCapacity

/-- R172: STATUS_CLEAR: its word; it clears exactly the selected sticky bits; a mask with bits 7:5 set, or an operand, is
refused and clears nothing. -/
def Obligations.StatusClearClearsSelectedBits : Prop :=
  (∀ m : Byte, (encode (.statusClear m)).toNat = 0x12 + 2 ^ 8 * m.toNat) ∧
  (∀ (s : State) (m : Byte), s.op ≠ [] → exec (.statusClear m) s = .next (illegalAnswer s)) ∧
  ∀ (s : State) (m : Byte), s.op = [] →
    (m.toNat < 32 → ∃ t, exec (.statusClear m) s = .next t ∧
      t = { s with sticky := t.sticky, out := [], ev := [] } ∧
      ∀ i, i < 5 → t.sticky.getLsbD i = (s.sticky.getLsbD i && !m.getLsbD i)) ∧
    (32 ≤ m.toNat → exec (.statusClear m) s = .next { s with
      out := [], ev := [.error .illegalCommand], sticky := s.sticky ||| 0b00100#5 })

/-- R58: REG_READ and CACHE_READ are idempotent: the same read again gives the same answer and the same state. -/
def Obligations.ReadsAreIdempotent : Prop :=
  ∀ (i : Instr) (s t : State), ((∃ r, i = .regRead r) ∨ ∃ sel, i = .cacheRead sel) →
    exec i s = .next t → exec i t = .next t

/-- R235: a REG_READ right after a CFG_WRITE returns the new CTRL. -/
def Obligations.ReadSeesPrecedingWrite : Prop :=
  ∀ (s : State) (v : Half) (rest : List HostAction), v.toNat < 16 →
    s.inbox = .command (encode (.cfgWrite v)) [] :: .command (encode (.regRead 0x00#8)) [] :: rest →
    ∃ t u, step s = .next t ∧ step t = .next u ∧ u.out = [BitVec.ofNat 8 v.toNat, 0#8, 0#8, 0#8] ∧ u.inbox = rest

/-- R235: a CACHE_READ right after the RX_FRAGMENT that completes a frame returns the new payload. -/
def Obligations.CacheReadSeesPrecedingCompletion : Prop :=
  ∀ (s : State) (f : List Byte) (rest : List HostAction) (t : State) (p : List Byte) (d : Option (List Byte)),
    s.inbox = .command (encode .rxFragment) f :: .command (encode (.cacheRead 0#8)) [] :: rest →
    step s = .next t → Event.complete p d ∈ t.ev →
    ∃ u, step t = .next u ∧ u.out = p ∧ u.ev = [] ∧ u.inbox = rest
end

