-- ==== Sys2Proof/Laws/Operands.lean ====
section
/-! SUPPORT. What the operand helpers do: lengths, and reading back what was written. -/

namespace Sys2Proof.Machine

theorem clamp_ge {v lo hi : Int} (h : lo ≤ hi) : lo ≤ clamp v lo hi := by
  unfold clamp; split <;> [skip; split] <;> omega

theorem clamp_le {v lo hi : Int} (h : lo ≤ hi) : clamp v lo hi ≤ hi := by
  unfold clamp; split <;> [skip; split] <;> omega

theorem clamp_of_mem {v lo hi : Int} (h1 : lo ≤ v) (h2 : v ≤ hi) : clamp v lo hi = v := by
  unfold clamp; split <;> [skip; split] <;> omega

@[simp] theorem zeros_length (n : Nat) : (zeros n).length = n := by simp [zeros]

@[simp] theorem slice_length {α : Type} (q : List α) (i n : Nat) : (slice q i n).length = min n (q.length - i) := by
  simp [slice]

@[simp] theorem u16le_length (v : Int) : (u16le v).length = 2 := rfl

@[simp] theorem u32le_length (v : Word) : (u32le v).length = 4 := rfl

@[simp] theorem pcmBytes_nil : pcmBytes [] = [] := rfl

@[simp] theorem pcmBytes_cons (v : Int) (l : List Int) : pcmBytes (v :: l) = u16le v ++ pcmBytes l := rfl

@[simp] theorem pcmBytes_length (l : List Int) : (pcmBytes l).length = 2 * l.length := by
  induction l with
  | nil => rfl
  | cons v l ih => simp [ih]; omega

@[simp] theorem codesOf_nil : codesOf [] = [] := rfl

@[simp] theorem codesOf_cons (b : Byte) (q : List Byte) :
    codesOf (b :: q) = b.extractLsb' 0 4 :: b.extractLsb' 4 4 :: codesOf q := rfl

@[simp] theorem codesOf_length (q : List Byte) : (codesOf q).length = 2 * q.length := by
  induction q with
  | nil => rfl
  | cons b q ih => simp [ih]; omega

theorem samplesOf_length (q : List Byte) : (samplesOf q).length = q.length / 2 := by
  induction q using samplesOf.induct with
  | case1 lo hi q ih => simp [samplesOf, ih]; omega
  | case2 q h =>
    match q, h with
    | [], _ => rfl
    | [_], _ => simp [samplesOf]
    | _ :: _ :: _, h => exact absurd rfl (h _ _ _)

/-- Samples of whole samples' bytes followed by more bytes (R53). -/
theorem samplesOf_append (q r : List Byte) (h : q.length % 2 = 0) : samplesOf (q ++ r) = samplesOf q ++ samplesOf r := by
  induction q using samplesOf.induct with
  | case1 lo hi q ih => simp only [List.cons_append, samplesOf, ih (by simp at h; omega)]
  | case2 q hq =>
    match q, hq with
    | [], _ => rfl
    | [_], _ => simp at h
    | _ :: _ :: _, hq => exact absurd rfl (hq _ _ _)

theorem packCodes_length (l : List Nibble) : (packCodes l).length = (l.length + 1) / 2 := by
  induction l using packCodes.induct with
  | case1 lo hi q ih => simp [packCodes, ih]; omega
  | case2 lo => simp [packCodes]
  | case3 => rfl

/-- A byte's two nibbles, put together again. -/
theorem nibbles_append (lo hi : Nibble) :
    (hi ++ lo : BitVec (4 + 4)).extractLsb' 0 4 = lo ∧ (hi ++ lo : BitVec (4 + 4)).extractLsb' 4 4 = hi := by
  revert lo hi; decide +kernel

/-- Codes packed by the encoder are the codes the decoder unpacks, for an even number of codes (R55). -/
theorem codesOf_packCodes (l : List Nibble) (h : l.length % 2 = 0) : codesOf (packCodes l) = l := by
  induction l using packCodes.induct with
  | case1 lo hi q ih =>
    have := nibbles_append lo hi
    simp only [packCodes, codesOf_cons, this]
    rw [ih (by simp at h; omega)]
  | case2 lo => simp at h
  | case3 => rfl

end Sys2Proof.Machine
end

