-- ==== Sys2Proof/Laws/State.lean ====
section
/-! SUPPORT. One lemma per field of `State` for each named update, so that no proof unfolds a record update. -/

namespace Sys2Proof.Machine

variable (s : State)

/-! ### beginAnswer -/

@[simp] theorem beginAnswer_ctrl : s.beginAnswer.ctrl = s.ctrl := rfl
@[simp] theorem beginAnswer_sticky : s.beginAnswer.sticky = s.sticky := rfl
@[simp] theorem beginAnswer_rxState : s.beginAnswer.rxState = s.rxState := rfl
@[simp] theorem beginAnswer_rxBuf : s.beginAnswer.rxBuf = s.rxBuf := rfl
@[simp] theorem beginAnswer_rxExpected : s.beginAnswer.rxExpected = s.rxExpected := rfl
@[simp] theorem beginAnswer_cache : s.beginAnswer.cache = s.cache := rfl
@[simp] theorem beginAnswer_msgCount : s.beginAnswer.msgCount = s.msgCount := rfl
@[simp] theorem beginAnswer_params : s.beginAnswer.params = s.params := rfl
@[simp] theorem beginAnswer_inbox : s.beginAnswer.inbox = s.inbox := rfl
@[simp] theorem beginAnswer_op : s.beginAnswer.op = s.op := rfl
@[simp] theorem beginAnswer_out : s.beginAnswer.out = [] := rfl
@[simp] theorem beginAnswer_ev : s.beginAnswer.ev = [] := rfl

/-! ### emit -/

@[simp] theorem emit_ctrl (e : Event) : (s.emit e).ctrl = s.ctrl := rfl
@[simp] theorem emit_sticky (e : Event) : (s.emit e).sticky = s.sticky := rfl
@[simp] theorem emit_rxState (e : Event) : (s.emit e).rxState = s.rxState := rfl
@[simp] theorem emit_rxBuf (e : Event) : (s.emit e).rxBuf = s.rxBuf := rfl
@[simp] theorem emit_rxExpected (e : Event) : (s.emit e).rxExpected = s.rxExpected := rfl
@[simp] theorem emit_cache (e : Event) : (s.emit e).cache = s.cache := rfl
@[simp] theorem emit_msgCount (e : Event) : (s.emit e).msgCount = s.msgCount := rfl
@[simp] theorem emit_params (e : Event) : (s.emit e).params = s.params := rfl
@[simp] theorem emit_inbox (e : Event) : (s.emit e).inbox = s.inbox := rfl
@[simp] theorem emit_op (e : Event) : (s.emit e).op = s.op := rfl
@[simp] theorem emit_out (e : Event) : (s.emit e).out = s.out := rfl
@[simp] theorem emit_ev (e : Event) : (s.emit e).ev = s.ev ++ [e] := rfl

/-! ### output -/

@[simp] theorem output_ctrl (q : List Byte) : (s.output q).ctrl = s.ctrl := rfl
@[simp] theorem output_sticky (q : List Byte) : (s.output q).sticky = s.sticky := rfl
@[simp] theorem output_rxState (q : List Byte) : (s.output q).rxState = s.rxState := rfl
@[simp] theorem output_rxBuf (q : List Byte) : (s.output q).rxBuf = s.rxBuf := rfl
@[simp] theorem output_rxExpected (q : List Byte) : (s.output q).rxExpected = s.rxExpected := rfl
@[simp] theorem output_cache (q : List Byte) : (s.output q).cache = s.cache := rfl
@[simp] theorem output_msgCount (q : List Byte) : (s.output q).msgCount = s.msgCount := rfl
@[simp] theorem output_params (q : List Byte) : (s.output q).params = s.params := rfl
@[simp] theorem output_inbox (q : List Byte) : (s.output q).inbox = s.inbox := rfl
@[simp] theorem output_op (q : List Byte) : (s.output q).op = s.op := rfl
@[simp] theorem output_out (q : List Byte) : (s.output q).out = s.out ++ q := rfl
@[simp] theorem output_ev (q : List Byte) : (s.output q).ev = s.ev := rfl

/-! ### raise -/

@[simp] theorem raise_ctrl (k : ErrorKind) : (s.raise k).ctrl = s.ctrl := rfl
@[simp] theorem raise_sticky (k : ErrorKind) : (s.raise k).sticky = s.sticky ||| k.stickyBit := rfl
@[simp] theorem raise_rxState (k : ErrorKind) : (s.raise k).rxState = s.rxState := rfl
@[simp] theorem raise_rxBuf (k : ErrorKind) : (s.raise k).rxBuf = s.rxBuf := rfl
@[simp] theorem raise_rxExpected (k : ErrorKind) : (s.raise k).rxExpected = s.rxExpected := rfl
@[simp] theorem raise_cache (k : ErrorKind) : (s.raise k).cache = s.cache := rfl
@[simp] theorem raise_msgCount (k : ErrorKind) : (s.raise k).msgCount = s.msgCount := rfl
@[simp] theorem raise_params (k : ErrorKind) : (s.raise k).params = s.params := rfl
@[simp] theorem raise_inbox (k : ErrorKind) : (s.raise k).inbox = s.inbox := rfl
@[simp] theorem raise_op (k : ErrorKind) : (s.raise k).op = s.op := rfl
@[simp] theorem raise_out (k : ErrorKind) : (s.raise k).out = s.out := rfl
@[simp] theorem raise_ev (k : ErrorKind) : (s.raise k).ev = s.ev ++ [.error k] := rfl

/-! ### refused -/

@[simp] theorem refused_ctrl : s.refused.ctrl = s.ctrl := rfl
@[simp] theorem refused_sticky : s.refused.sticky = s.sticky ||| ErrorKind.illegalCommand.stickyBit := rfl
@[simp] theorem refused_rxState : s.refused.rxState = s.rxState := rfl
@[simp] theorem refused_rxBuf : s.refused.rxBuf = s.rxBuf := rfl
@[simp] theorem refused_rxExpected : s.refused.rxExpected = s.rxExpected := rfl
@[simp] theorem refused_cache : s.refused.cache = s.cache := rfl
@[simp] theorem refused_msgCount : s.refused.msgCount = s.msgCount := rfl
@[simp] theorem refused_params : s.refused.params = s.params := rfl
@[simp] theorem refused_inbox : s.refused.inbox = s.inbox := rfl
@[simp] theorem refused_op : s.refused.op = s.op := rfl
@[simp] theorem refused_out : s.refused.out = [] := rfl
@[simp] theorem refused_ev : s.refused.ev = [.error .illegalCommand] := rfl

/-! ### hostReset -/

@[simp] theorem hostReset_ctrl : s.hostReset.ctrl = 0x00000005#32 := rfl
@[simp] theorem hostReset_sticky : s.hostReset.sticky = 0#5 := rfl
@[simp] theorem hostReset_rxState : s.hostReset.rxState = .awaitingHeader := rfl
@[simp] theorem hostReset_rxBuf : s.hostReset.rxBuf = [] := rfl
@[simp] theorem hostReset_rxExpected : s.hostReset.rxExpected = none := rfl
@[simp] theorem hostReset_cache : s.hostReset.cache = none := rfl
@[simp] theorem hostReset_msgCount : s.hostReset.msgCount = 0#32 := rfl
@[simp] theorem hostReset_params : s.hostReset.params = s.params := rfl
@[simp] theorem hostReset_inbox : s.hostReset.inbox = s.inbox := rfl
@[simp] theorem hostReset_op : s.hostReset.op = [] := rfl
@[simp] theorem hostReset_out : s.hostReset.out = [] := rfl
@[simp] theorem hostReset_ev : s.hostReset.ev = [] := rfl

/-! ### withCommand -/

@[simp] theorem withCommand_ctrl (cmd : Word) (q : List Byte) : (s.withCommand cmd q).ctrl = s.ctrl := rfl
@[simp] theorem withCommand_sticky (cmd : Word) (q : List Byte) : (s.withCommand cmd q).sticky = s.sticky := rfl
@[simp] theorem withCommand_rxState (cmd : Word) (q : List Byte) : (s.withCommand cmd q).rxState = s.rxState := rfl
@[simp] theorem withCommand_rxBuf (cmd : Word) (q : List Byte) : (s.withCommand cmd q).rxBuf = s.rxBuf := rfl
@[simp] theorem withCommand_rxExpected (cmd : Word) (q : List Byte) : (s.withCommand cmd q).rxExpected = s.rxExpected := rfl
@[simp] theorem withCommand_cache (cmd : Word) (q : List Byte) : (s.withCommand cmd q).cache = s.cache := rfl
@[simp] theorem withCommand_msgCount (cmd : Word) (q : List Byte) : (s.withCommand cmd q).msgCount = s.msgCount := rfl
@[simp] theorem withCommand_params (cmd : Word) (q : List Byte) : (s.withCommand cmd q).params = s.params := rfl
@[simp] theorem withCommand_inbox (cmd : Word) (q : List Byte) : (s.withCommand cmd q).inbox = .command cmd q :: s.inbox := rfl
@[simp] theorem withCommand_op (cmd : Word) (q : List Byte) : (s.withCommand cmd q).op = s.op := rfl
@[simp] theorem withCommand_out (cmd : Word) (q : List Byte) : (s.withCommand cmd q).out = s.out := rfl
@[simp] theorem withCommand_ev (cmd : Word) (q : List Byte) : (s.withCommand cmd q).ev = s.ev := rfl

/-! ### appendFragment -/

@[simp] theorem appendFragment_ctrl : s.appendFragment.ctrl = s.ctrl := rfl
@[simp] theorem appendFragment_sticky : s.appendFragment.sticky = s.sticky := rfl
@[simp] theorem appendFragment_rxState : s.appendFragment.rxState = s.rxState := rfl
@[simp] theorem appendFragment_rxBuf : s.appendFragment.rxBuf = s.rxBuf ++ s.op := rfl
@[simp] theorem appendFragment_rxExpected : s.appendFragment.rxExpected = s.rxExpected := rfl
@[simp] theorem appendFragment_cache : s.appendFragment.cache = s.cache := rfl
@[simp] theorem appendFragment_msgCount : s.appendFragment.msgCount = s.msgCount := rfl
@[simp] theorem appendFragment_params : s.appendFragment.params = s.params := rfl
@[simp] theorem appendFragment_inbox : s.appendFragment.inbox = s.inbox := rfl
@[simp] theorem appendFragment_op : s.appendFragment.op = s.op := rfl
@[simp] theorem appendFragment_out : s.appendFragment.out = s.out := rfl
@[simp] theorem appendFragment_ev : s.appendFragment.ev = s.ev := rfl

/-! ### recordFrame -/

@[simp] theorem recordFrame_ctrl (p : List Byte) (d : Option (List Byte)) : (s.recordFrame p d).ctrl = s.ctrl := rfl
@[simp] theorem recordFrame_sticky (p : List Byte) (d : Option (List Byte)) : (s.recordFrame p d).sticky = s.sticky := rfl
@[simp] theorem recordFrame_rxState (p : List Byte) (d : Option (List Byte)) : (s.recordFrame p d).rxState = s.rxState := rfl
@[simp] theorem recordFrame_rxBuf (p : List Byte) (d : Option (List Byte)) : (s.recordFrame p d).rxBuf = s.rxBuf := rfl
@[simp] theorem recordFrame_rxExpected (p : List Byte) (d : Option (List Byte)) : (s.recordFrame p d).rxExpected = s.rxExpected := rfl
@[simp] theorem recordFrame_cache (p : List Byte) (d : Option (List Byte)) : (s.recordFrame p d).cache = some ⟨p, d⟩ := rfl
@[simp] theorem recordFrame_msgCount (p : List Byte) (d : Option (List Byte)) : (s.recordFrame p d).msgCount = s.msgCount + 1#32 := rfl
@[simp] theorem recordFrame_params (p : List Byte) (d : Option (List Byte)) : (s.recordFrame p d).params = s.params := rfl
@[simp] theorem recordFrame_inbox (p : List Byte) (d : Option (List Byte)) : (s.recordFrame p d).inbox = s.inbox := rfl
@[simp] theorem recordFrame_op (p : List Byte) (d : Option (List Byte)) : (s.recordFrame p d).op = s.op := rfl
@[simp] theorem recordFrame_out (p : List Byte) (d : Option (List Byte)) : (s.recordFrame p d).out = s.out := rfl
@[simp] theorem recordFrame_ev (p : List Byte) (d : Option (List Byte)) : (s.recordFrame p d).ev = s.ev ++ [.complete p d] := rfl

/-! ### rearm -/

@[simp] theorem rearm_ctrl : s.rearm.ctrl = s.ctrl := rfl
@[simp] theorem rearm_sticky : s.rearm.sticky = s.sticky := rfl
@[simp] theorem rearm_rxState : s.rearm.rxState = .awaitingHeader := rfl
@[simp] theorem rearm_rxBuf : s.rearm.rxBuf = [] := rfl
@[simp] theorem rearm_rxExpected : s.rearm.rxExpected = none := rfl
@[simp] theorem rearm_cache : s.rearm.cache = s.cache := rfl
@[simp] theorem rearm_msgCount : s.rearm.msgCount = s.msgCount := rfl
@[simp] theorem rearm_params : s.rearm.params = s.params := rfl
@[simp] theorem rearm_inbox : s.rearm.inbox = s.inbox := rfl
@[simp] theorem rearm_op : s.rearm.op = s.op := rfl
@[simp] theorem rearm_out : s.rearm.out = s.out := rfl
@[simp] theorem rearm_ev : s.rearm.ev = s.ev := rfl

/-! ### cfgWriteEffect -/

@[simp] theorem cfgWriteEffect_ctrl (v : Half) : (cfgWriteEffect v s).ctrl = v.setWidth 32 := rfl
@[simp] theorem cfgWriteEffect_sticky (v : Half) : (cfgWriteEffect v s).sticky = s.sticky := rfl
@[simp] theorem cfgWriteEffect_rxState (v : Half) : (cfgWriteEffect v s).rxState = s.rxState := rfl
@[simp] theorem cfgWriteEffect_rxBuf (v : Half) : (cfgWriteEffect v s).rxBuf = s.rxBuf := rfl
@[simp] theorem cfgWriteEffect_rxExpected (v : Half) : (cfgWriteEffect v s).rxExpected = s.rxExpected := rfl
@[simp] theorem cfgWriteEffect_cache (v : Half) : (cfgWriteEffect v s).cache = s.cache := rfl
@[simp] theorem cfgWriteEffect_msgCount (v : Half) : (cfgWriteEffect v s).msgCount = s.msgCount := rfl
@[simp] theorem cfgWriteEffect_params (v : Half) : (cfgWriteEffect v s).params = s.params := rfl
@[simp] theorem cfgWriteEffect_inbox (v : Half) : (cfgWriteEffect v s).inbox = s.inbox := rfl
@[simp] theorem cfgWriteEffect_op (v : Half) : (cfgWriteEffect v s).op = s.op := rfl
@[simp] theorem cfgWriteEffect_out (v : Half) : (cfgWriteEffect v s).out = s.out := rfl
@[simp] theorem cfgWriteEffect_ev (v : Half) : (cfgWriteEffect v s).ev = s.ev := rfl

/-! ### statusClearEffect -/

@[simp] theorem statusClearEffect_ctrl (m : Byte) : (statusClearEffect m s).ctrl = s.ctrl := rfl
@[simp] theorem statusClearEffect_sticky (m : Byte) : (statusClearEffect m s).sticky = s.sticky &&& ~~~(m.extractLsb' 0 5) := rfl
@[simp] theorem statusClearEffect_rxState (m : Byte) : (statusClearEffect m s).rxState = s.rxState := rfl
@[simp] theorem statusClearEffect_rxBuf (m : Byte) : (statusClearEffect m s).rxBuf = s.rxBuf := rfl
@[simp] theorem statusClearEffect_rxExpected (m : Byte) : (statusClearEffect m s).rxExpected = s.rxExpected := rfl
@[simp] theorem statusClearEffect_cache (m : Byte) : (statusClearEffect m s).cache = s.cache := rfl
@[simp] theorem statusClearEffect_msgCount (m : Byte) : (statusClearEffect m s).msgCount = s.msgCount := rfl
@[simp] theorem statusClearEffect_params (m : Byte) : (statusClearEffect m s).params = s.params := rfl
@[simp] theorem statusClearEffect_inbox (m : Byte) : (statusClearEffect m s).inbox = s.inbox := rfl
@[simp] theorem statusClearEffect_op (m : Byte) : (statusClearEffect m s).op = s.op := rfl
@[simp] theorem statusClearEffect_out (m : Byte) : (statusClearEffect m s).out = s.out := rfl
@[simp] theorem statusClearEffect_ev (m : Byte) : (statusClearEffect m s).ev = s.ev := rfl

/-! ### rxResetEffect -/

@[simp] theorem rxResetEffect_ctrl : (rxResetEffect s).ctrl = s.ctrl := rfl
@[simp] theorem rxResetEffect_sticky : (rxResetEffect s).sticky = s.sticky := rfl
@[simp] theorem rxResetEffect_rxState : (rxResetEffect s).rxState = .awaitingHeader := rfl
@[simp] theorem rxResetEffect_rxBuf : (rxResetEffect s).rxBuf = [] := rfl
@[simp] theorem rxResetEffect_rxExpected : (rxResetEffect s).rxExpected = none := rfl
@[simp] theorem rxResetEffect_cache : (rxResetEffect s).cache = none := rfl
@[simp] theorem rxResetEffect_msgCount : (rxResetEffect s).msgCount = s.msgCount := rfl
@[simp] theorem rxResetEffect_params : (rxResetEffect s).params = s.params := rfl
@[simp] theorem rxResetEffect_inbox : (rxResetEffect s).inbox = s.inbox := rfl
@[simp] theorem rxResetEffect_op : (rxResetEffect s).op = s.op := rfl
@[simp] theorem rxResetEffect_out : (rxResetEffect s).out = s.out := rfl
@[simp] theorem rxResetEffect_ev : (rxResetEffect s).ev = s.ev := rfl

/-! ### raiseIf -/

@[simp] theorem raiseIf_ctrl (c : Bool) (k : ErrorKind) : (s.raiseIf c k).ctrl = s.ctrl := by
  cases c <;> simp [State.raiseIf]
@[simp] theorem raiseIf_sticky (c : Bool) (k : ErrorKind) : (s.raiseIf c k).sticky = if c then s.sticky ||| k.stickyBit else s.sticky := by
  cases c <;> simp [State.raiseIf]
@[simp] theorem raiseIf_rxState (c : Bool) (k : ErrorKind) : (s.raiseIf c k).rxState = s.rxState := by
  cases c <;> simp [State.raiseIf]
@[simp] theorem raiseIf_rxBuf (c : Bool) (k : ErrorKind) : (s.raiseIf c k).rxBuf = s.rxBuf := by
  cases c <;> simp [State.raiseIf]
@[simp] theorem raiseIf_rxExpected (c : Bool) (k : ErrorKind) : (s.raiseIf c k).rxExpected = s.rxExpected := by
  cases c <;> simp [State.raiseIf]
@[simp] theorem raiseIf_cache (c : Bool) (k : ErrorKind) : (s.raiseIf c k).cache = s.cache := by
  cases c <;> simp [State.raiseIf]
@[simp] theorem raiseIf_msgCount (c : Bool) (k : ErrorKind) : (s.raiseIf c k).msgCount = s.msgCount := by
  cases c <;> simp [State.raiseIf]
@[simp] theorem raiseIf_params (c : Bool) (k : ErrorKind) : (s.raiseIf c k).params = s.params := by
  cases c <;> simp [State.raiseIf]
@[simp] theorem raiseIf_inbox (c : Bool) (k : ErrorKind) : (s.raiseIf c k).inbox = s.inbox := by
  cases c <;> simp [State.raiseIf]
@[simp] theorem raiseIf_op (c : Bool) (k : ErrorKind) : (s.raiseIf c k).op = s.op := by
  cases c <;> simp [State.raiseIf]
@[simp] theorem raiseIf_out (c : Bool) (k : ErrorKind) : (s.raiseIf c k).out = s.out := by
  cases c <;> simp [State.raiseIf]
@[simp] theorem raiseIf_ev (c : Bool) (k : ErrorKind) : (s.raiseIf c k).ev = s.ev ++ (if c then [.error k] else []) := by
  cases c <;> simp [State.raiseIf]

/-! ### acceptHeader -/

@[simp] theorem acceptHeader_ctrl (r : HeaderResult) : (s.acceptHeader r).ctrl = s.ctrl := by
  rcases r with ⟨_, _ | _, _⟩ <;> simp [State.acceptHeader]
@[simp] theorem acceptHeader_sticky (r : HeaderResult) : (s.acceptHeader r).sticky = s.sticky := by
  rcases r with ⟨_, _ | _, _⟩ <;> simp [State.acceptHeader]
@[simp] theorem acceptHeader_rxState (r : HeaderResult) : (s.acceptHeader r).rxState = if r.expected.isSome then .accumulating else s.rxState := by
  rcases r with ⟨_, _ | _, _⟩ <;> simp [State.acceptHeader]
@[simp] theorem acceptHeader_rxBuf (r : HeaderResult) : (s.acceptHeader r).rxBuf = r.buf := by
  rcases r with ⟨_, _ | _, _⟩ <;> simp [State.acceptHeader]
@[simp] theorem acceptHeader_rxExpected (r : HeaderResult) : (s.acceptHeader r).rxExpected = r.expected.or s.rxExpected := by
  rcases r with ⟨_, _ | _, _⟩ <;> simp [State.acceptHeader]
@[simp] theorem acceptHeader_cache (r : HeaderResult) : (s.acceptHeader r).cache = s.cache := by
  rcases r with ⟨_, _ | _, _⟩ <;> simp [State.acceptHeader]
@[simp] theorem acceptHeader_msgCount (r : HeaderResult) : (s.acceptHeader r).msgCount = s.msgCount := by
  rcases r with ⟨_, _ | _, _⟩ <;> simp [State.acceptHeader]
@[simp] theorem acceptHeader_params (r : HeaderResult) : (s.acceptHeader r).params = s.params := by
  rcases r with ⟨_, _ | _, _⟩ <;> simp [State.acceptHeader]
@[simp] theorem acceptHeader_inbox (r : HeaderResult) : (s.acceptHeader r).inbox = s.inbox := by
  rcases r with ⟨_, _ | _, _⟩ <;> simp [State.acceptHeader]
@[simp] theorem acceptHeader_op (r : HeaderResult) : (s.acceptHeader r).op = s.op := by
  rcases r with ⟨_, _ | _, _⟩ <;> simp [State.acceptHeader]
@[simp] theorem acceptHeader_out (r : HeaderResult) : (s.acceptHeader r).out = s.out := by
  rcases r with ⟨_, _ | _, _⟩ <;> simp [State.acceptHeader]
@[simp] theorem acceptHeader_ev (r : HeaderResult) : (s.acceptHeader r).ev = s.ev := by
  rcases r with ⟨_, _ | _, _⟩ <;> simp [State.acceptHeader]

/-! ### The fields of CTRL are functions of `ctrl` -/

theorem rxCompressed_congr {s t : State} (h : s.ctrl = t.ctrl) : s.rxCompressed = t.rxCompressed := by
  simp [State.rxCompressed, h]

theorem txCompressed_congr {s t : State} (h : s.ctrl = t.ctrl) : s.txCompressed = t.txCompressed := by
  simp [State.txCompressed, h]

theorem resyncScan_congr {s t : State} (h : s.ctrl = t.ctrl) : s.resyncScan = t.resyncScan := by
  simp [State.resyncScan, h]

theorem truncPad_congr {s t : State} (h : s.ctrl = t.ctrl) : s.truncPad = t.truncPad := by
  simp [State.truncPad, h]

/-- D depends on the state through CTRL alone. -/
theorem decodedPayload_congr {s t : State} (h : s.ctrl = t.ctrl) (p : List Byte) :
    s.decodedPayload p = t.decodedPayload p := by
  simp [State.decodedPayload, rxCompressed_congr h, truncPad_congr h]

end Sys2Proof.Machine
end

