-- ==== Sys2Proof/Laws/Codec.lean ====
section
/-! SUPPORT. What the codec's primitives do: lengths, how codes compose, and that an encoder step is a decoder step. -/

namespace Sys2Proof.Machine

@[simp] theorem decodeCodes_length (pred : Int) (idx : Nat) (l : List Nibble) :
    (decodeCodes pred idx l).length = l.length := by
  induction l generalizing pred idx with
  | nil => rfl
  | cons n l ih => simp [decodeCodes, ih]

@[simp] theorem encodeCodes_length (pred : Int) (idx : Nat) (l : List Int) :
    (encodeCodes pred idx l).length = l.length := by
  induction l generalizing pred idx with
  | nil => rfl
  | cons n l ih => simp [encodeCodes, ih]

/-- The encoder's new predictor and index are the decoder's for the code it chose (R102). -/
@[simp] theorem encodeSample_snd (pred : Int) (idx : Nat) (v : Int) :
    (encodeSample pred idx v).2 = decodeNibble pred idx (encodeSample pred idx v).1 := rfl

@[simp] theorem noteTruncation_eq (q : List Byte) (s : State) :
    s.noteTruncation q = s.raiseIf (truncated q) .truncatedBlock := rfl

@[simp] theorem noteOddByte_eq (q : List Byte) (s : State) : s.noteOddByte q = s.raiseIf (oddLength q) .oddByte := rfl

end Sys2Proof.Machine
end

