-- ==== Sys2Proof/Laws/Ops.lean ====
section
/-! SUPPORT. One lemma for each shared operation that says everything it does: the legality gate, the refusal and the
port. -/

namespace Sys2Proof.Machine

/-- A transaction always has an answer: the command's effect when it is legal, the refusal otherwise. -/
theorem transact_eq (legal : Bool) (f : State → State) (s : State) :
    transact legal f s = .next (if legal = true then f s.beginAnswer else s.refused) := rfl

theorem transact_eq_next {legal : Bool} {f : State → State} {s t : State} (h : transact legal f s = .next t) :
    (legal = true ∧ t = f s.beginAnswer) ∨ (legal = false ∧ t = s.refused) := by
  cases legal
  · exact .inr ⟨rfl, (Host.Outcome.next.inj h).symm⟩
  · exact .inl ⟨rfl, (Host.Outcome.next.inj h).symm⟩

theorem transact_legal {legal : Bool} (f : State → State) (s : State) (h : legal = true) :
    transact legal f s = .next (f s.beginAnswer) := by
  simp [transact, h]

theorem transact_illegal {legal : Bool} (f : State → State) (s : State) (h : legal = false) :
    transact legal f s = .next s.refused := by
  simp [transact, h]

/-- R74's effect, as one record. -/
theorem refused_eq (s : State) :
    s.refused = { s with out := [], ev := [.error .illegalCommand], sticky := s.sticky ||| 0b00100#5 } := rfl

theorem operandEmpty_iff (s : State) : s.operandEmpty = true ↔ s.op = [] := by
  simp [State.operandEmpty]

theorem operandFits_iff (s : State) : s.operandFits = true ↔ s.op.length < 2 ^ 32 := by
  simp [State.operandFits]

theorem fetch_nil {s : State} (h : s.inbox = []) : fetch s = .idle := by
  simp [fetch, h]

theorem fetch_reset {s : State} {c : Option (Word × List Byte)} {rest : List HostAction}
    (h : s.inbox = .reset c :: rest) : fetch s = .reset { s with inbox := rest } := by
  simp [fetch, h]

theorem fetch_command {s : State} {cmd : Word} {op : List Byte} {rest : List HostAction}
    (h : s.inbox = .command cmd op :: rest) : fetch s = .command cmd { s with inbox := rest, op := op } := by
  simp [fetch, h]

end Sys2Proof.Machine
end

