-- ==== Sys2Proof/Laws/Exec.lean ====
section
/-! SUPPORT. What `exec` can do, said once: the effect of a legal command or the refusal. -/

namespace Sys2Proof.Machine

theorem selectorLegal_iff (b : Byte) : selectorLegal b = true ↔ b.toNat ≤ 1 := by
  revert b; decide +kernel

theorem regIndexLegal_iff (b : Byte) : regIndexLegal b = true ↔ b.toNat ≤ 6 := by
  revert b; decide +kernel

theorem clearMaskLegal_iff (b : Byte) : clearMaskLegal b = true ↔ b.toNat < 2 ^ 5 := by
  revert b; decide +kernel

theorem ctrlValueLegal_iff (v : Half) : ctrlValueLegal v = true ↔ v.toNat < 2 ^ 4 := by
  have := v.isLt
  rw [ctrlValueLegal, decide_eq_true_iff, ← BitVec.toNat_inj]
  simp [Nat.shiftRight_eq_div_pow]
  omega

/-- The effect of each command when it is legal, on the state whose answer is empty. -/
def effectOf : Instr → State → State
  | .decode => decodeEffect
  | .encode => encodeEffect
  | .frameBuild => frameBuildEffect
  | .rxFragment => rxFragmentEffect
  | .rxReset => rxResetEffect
  | .cacheRead selector => fun t => t.output (cacheBytes selector t.cache)
  | .cfgWrite value => cfgWriteEffect value
  | .regRead index => fun t => t.output (u32le (t.register index))
  | .statusClear mask => statusClearEffect mask

theorem exec_of_legal {i : Instr} {s : State} (h : Legal i s) : exec i s = .next (effectOf i s.beginAnswer) := by
  obtain ⟨h1, h2, h3⟩ := h
  cases i <;> exact transact_legal _ _ (by
    simp_all [Instr.wellFormed, Instr.usesOperand, State.operandFits, State.operandEmpty, selectorLegal_iff,
      regIndexLegal_iff, clearMaskLegal_iff, ctrlValueLegal_iff])

theorem exec_of_illegal {i : Instr} {s : State} (h : ¬ Legal i s) : exec i s = .next s.refused := by
  have hop : s.op = [] → s.op.length < 2 ^ 32 := fun e => by simp [e]
  cases i <;> refine transact_illegal _ _ (Bool.eq_false_iff.mpr fun hl => h ?_) <;>
    simp_all [Legal, Instr.wellFormed, Instr.usesOperand, State.operandFits, State.operandEmpty, selectorLegal_iff,
      regIndexLegal_iff, clearMaskLegal_iff, ctrlValueLegal_iff]

/-- Every command answers a next state, and it is one of these two. -/
theorem exec_cases {i : Instr} {s t : State} (h : exec i s = .next t) :
    (Legal i s ∧ t = effectOf i s.beginAnswer) ∨ (¬ Legal i s ∧ t = s.refused) := by
  by_cases hl : Legal i s
  · exact .inl ⟨hl, Host.Outcome.next.inj (h.symm.trans (exec_of_legal hl))⟩
  · exact .inr ⟨hl, Host.Outcome.next.inj (h.symm.trans (exec_of_illegal hl))⟩

end Sys2Proof.Machine
end

