-- ==== Sys2Proof/Laws/PerInstr.lean ====
section
/-! SUPPORT. Laws made per command. -/

namespace Sys2Proof.Laws.TableRow

/-- The word of a command has the bits its row of R73 fixes. -/
def Statement (i : Instr) : Prop := encode i &&& rowMask i = rowMatch i

theorem decode : Statement .decode := by
  unfold Statement; decide

theorem encode : Statement .encode := by
  unfold Statement; decide

theorem frameBuild : Statement .frameBuild := by
  unfold Statement; decide

theorem rxFragment : Statement .rxFragment := by
  unfold Statement; decide

theorem rxReset : Statement .rxReset := by
  unfold Statement; decide

theorem cacheRead (selector : Byte) : Statement (.cacheRead selector) := by
  revert selector; unfold Statement; decide +kernel

theorem cfgWrite (value : Half) : Statement (.cfgWrite value) := by
  unfold Statement
  apply BitVec.eq_of_toNat_eq
  have h : (65535 : Nat) = 2 ^ 16 - 1 := rfl
  simp only [Sys2Proof.encode, rowMask, rowMatch, commandWord, BitVec.toNat_and, BitVec.toNat_append,
    BitVec.toNat_ofNat, Nat.reducePow, Nat.reduceMod]
  rw [h, Nat.and_two_pow_sub_one_eq_mod, Nat.or_mod_two_pow]
  have h0 : ((value.toNat <<< 8 ||| 0) <<< 8) % 2 ^ 16 = 0 := by
    simp only [Nat.or_zero, Nat.shiftLeft_eq]; omega
  rw [h0]; rfl

theorem regRead (index : Byte) : Statement (.regRead index) := by
  revert index; unfold Statement; decide +kernel

theorem statusClear (mask : Byte) : Statement (.statusClear mask) := by
  revert mask; unfold Statement; decide +kernel

end Sys2Proof.Laws.TableRow
end

