-- ==== Sys2Proof/Laws/Reassembler.lean ====
section
/-! SUPPORT. What the reassembler's phases do, once each; callers cite these instead of unfolding the phases. -/

namespace Sys2Proof.Machine

/-- The header phase runs only in AWAITING_HEADER. -/
theorem headerPhase_accumulating {s : State} (h : s.rxState = .accumulating) : headerPhase s = s := by
  simp [headerPhase, h]

theorem headerPhase_awaiting {s : State} (h : s.rxState = .awaitingHeader) :
    headerPhase s =
      (s.acceptHeader (parseHeader s.resyncScan s.params s.rxBuf)).raiseIf
        (parseHeader s.resyncScan s.params s.rxBuf).framing .framingError := by
  simp [headerPhase, h]

/-- The completion phase completes a whole frame and otherwise changes nothing. -/
theorem completionPhase_cases (s : State) :
    (∃ total, s.rxState = .accumulating ∧ s.rxExpected = some total ∧ total ≤ s.rxBuf.length ∧
      completionPhase s = completeFrame total s) ∨
    ((∀ total, s.rxState = .accumulating → s.rxExpected = some total → s.rxBuf.length < total) ∧
      completionPhase s = s) := by
  unfold completionPhase
  split
  · rename_i total h1 h2
    split
    · exact .inl ⟨total, h1, h2, by assumption, rfl⟩
    · refine .inr ⟨fun _ _ h => ?_, rfl⟩
      have := h2.symm.trans h
      simp only [Option.some.injEq] at this
      omega
  · rename_i h1 h2
    exact .inr ⟨fun _ _ h => (by simp [h2] at h), rfl⟩
  · rename_i h1
    exact .inr ⟨fun _ h _ => (by simp [h1] at h), rfl⟩

/-- The scan keeps a suffix of the buffer. -/
theorem scanHeader_suffix (p : Params) (q : List Byte) : (scanHeader p q).buf <:+ q := by
  induction q with
  | nil => exact List.suffix_rfl
  | cons b q ih =>
    unfold scanHeader
    have := ih.trans (List.suffix_cons b q)
    split
    · split
      · exact List.suffix_rfl
      · split
        · exact this
        · exact List.suffix_rfl
    · exact this

/-- What the scan's result is: a header of a plausible length, or nothing, or a marker prefix too short for a header. -/
theorem scanHeader_cases (p : Params) (q : List Byte) :
    ((scanHeader p q).expected = some (declaredTotal (scanHeader p q).buf) ∧
      markerPrefix p (scanHeader p q).buf = true ∧ 6 ≤ (scanHeader p q).buf.length ∧
      declaredTotal (scanHeader p q).buf ≤ p.rxCapacity) ∨
    ((scanHeader p q).expected = none ∧
      ((scanHeader p q).buf = [] ∨ (markerPrefix p (scanHeader p q).buf = true ∧ (scanHeader p q).buf.length < 6))) := by
  induction q with
  | nil => exact .inr ⟨rfl, .inl rfl⟩
  | cons b q ih =>
    unfold scanHeader
    split
    · rename_i hm
      split
      · exact .inr ⟨rfl, .inr ⟨hm, by simpa using ‹_›⟩⟩
      · split
        · exact ih
        · exact .inl ⟨rfl, hm, by simp_all, by simp_all⟩
    · exact ih

/-- What the reference form's result is. -/
theorem trustHeader_cases (p : Params) (q : List Byte) :
    (trustHeader p q = ⟨q, none, false⟩ ∧ q.length < 6) ∨
    (trustHeader p q = ⟨[], none, true⟩ ∧ 6 ≤ q.length ∧ p.rxCapacity < declaredTotal q) ∨
    (trustHeader p q = ⟨q, some (declaredTotal q), false⟩ ∧ 6 ≤ q.length ∧ declaredTotal q ≤ p.rxCapacity) := by
  unfold trustHeader
  split
  · exact .inl ⟨rfl, by simpa using ‹_›⟩
  · split
    · exact .inr (.inl ⟨rfl, by simp_all, by assumption⟩)
    · exact .inr (.inr ⟨rfl, by simp_all, by omega⟩)

end Sys2Proof.Machine
end

