-- ==== Sys2Proof/Machine/AssemblerText.lean ====
section
/-! DEFINITION. Reading a line of assembler text (30_encoding.md R76) as the abstract syntax of `AsmLine`. The text is a
list of characters. A number is `0x` and hexadecimal digits (00_scope.md R10) or decimal digits, and a number that does
not fit its argument makes the line no line of R76; both are the model's reading of R76 (log 14). -/

namespace Sys2Proof.Machine

/-- A lexical item of a line. -/
inductive AsmToken where
  /-- letters, digits, `_` and `-` in a row -/
  | word (letters : List Char)
  /-- a bracket, brace, parenthesis or comma -/
  | mark (c : Char)
  /-- `++` -/
  | concat
deriving DecidableEq, Repr

/-- What a line of text is. -/
inductive AsmText where
  /-- nothing but spaces and a comment -/
  | blank
  | line (l : AsmLine)
  /-- not the syntax of R76 -/
  | malformed
deriving DecidableEq, Repr

/-- The opening brace of a byte operand. -/
def braceOpen : Char := Char.ofNat 0x7B

/-- The closing brace of a byte operand. -/
def braceClose : Char := Char.ofNat 0x7D

/-- A character of a word. -/
def wordChar (c : Char) : Bool := c.isAlphanum || decide (c = '_') || decide (c = '-')

/-- A character that is a token of its own. -/
def markChar (c : Char) : Bool :=
  decide (c = braceOpen) || decide (c = braceClose) || decide (c = '[') || decide (c = ']') || decide (c = '(') ||
    decide (c = ')') || decide (c = ',')

/-- The tokens with the word read so far, if any, in front. -/
def closeWord (letters : List Char) (tokens : List AsmToken) : List AsmToken :=
  if letters.isEmpty then tokens else .word letters :: tokens

/-- The tokens of a line, `letters` being the word read so far; `;` starts a comment (R76). -/
def lexLine (letters : List Char) : List Char → Option (List AsmToken)
  | [] => some (closeWord letters [])
  | c :: q =>
    if wordChar c then lexLine (letters ++ [c]) q
    else if c = ' ' then (lexLine [] q).map (closeWord letters)
    else if c = '\t' then (lexLine [] q).map (closeWord letters)
    else if c = ';' then some (closeWord letters [])
    else if markChar c then (lexLine [] q).map fun t => closeWord letters (.mark c :: t)
    else if c = '+' then
      match q with
      | c2 :: q2 => if c2 = '+' then (lexLine [] q2).map fun t => closeWord letters (.concat :: t) else none
      | [] => none
    else none

/-- The value of a digit, hexadecimal digits in either case. -/
def digitValue (c : Char) : Option Nat :=
  if '0' ≤ c ∧ c ≤ '9' then some (c.toNat - 0x30)
  else if 'A' ≤ c ∧ c ≤ 'F' then some (c.toNat - 0x37)
  else if 'a' ≤ c ∧ c ≤ 'f' then some (c.toNat - 0x57)
  else none

/-- The value of digits in a base, after the digits of `acc`. -/
def digitsValue (base acc : Nat) : List Char → Option Nat
  | [] => some acc
  | c :: q =>
    match digitValue c with
    | some d => if d < base then digitsValue base (base * acc + d) q else none
    | none => none

/-- Digits in a base, at least one. -/
def digits (base : Nat) (letters : List Char) : Option Nat :=
  if letters.isEmpty then none else digitsValue base 0 letters

/-- A number: `0x..` (R10) or decimal. -/
def readNumber : List Char → Option Nat
  | '0' :: 'x' :: q => digits 16 q
  | q => digits 10 q

/-- A number of at most `bits` bits. -/
def readField (bits : Nat) (letters : List Char) : Option (BitVec bits) :=
  match readNumber letters with
  | some n => if n < 2 ^ bits then some (BitVec.ofNat bits n) else none
  | none => none

/-- A decimal sample of -32768 to 32767. -/
def readSample : List Char → Option Int
  | '-' :: q =>
    match digits 10 q with
    | some n => if n ≤ 32768 then some (-(n : Int)) else none
    | none => none
  | q =>
    match digits 10 q with
    | some n => if n ≤ 32767 then some (n : Int) else none
    | none => none

/-- One item between braces: `S0`, `S1` or a byte of one or two hexadecimal digits. -/
def readByte (letters : List Char) : Option AsmByte :=
  if letters = ['S', '0'] then some .s0
  else if letters = ['S', '1'] then some .s1
  else
    match digits 16 letters with
    | some n => if letters.length ≤ 2 then some (.lit (BitVec.ofNat 8 n)) else none
    | none => none

/-- The items up to the closing brace, which ends the term. -/
def readBytes : List AsmToken → Option (List AsmByte)
  | [.mark c] => if c = braceClose then some [] else none
  | .word w :: q =>
    match readByte w, readBytes q with
    | some b, some rest => some (b :: rest)
    | _, _ => none
  | _ => none

/-- The samples up to the closing bracket, which ends the term; a comma stands between two. -/
def readSamples : List AsmToken → Option (List Int)
  | [.word w, .mark c] => if c = ']' then (readSample w).map fun v => [v] else none
  | .word w :: .mark c :: q =>
    if c = ',' then
      match readSample w, readSamples q with
      | some v, some rest => some (v :: rest)
      | _, _ => none
    else none
  | _ => none

/-- One term of an operand: bytes in braces, `pcm[...]` or `zeros(n)`. -/
def readTerm : List AsmToken → Option AsmOperand
  | .mark c :: q => if c = braceOpen then (readBytes q).map .bytes else none
  | .word ['p', 'c', 'm'] :: .mark c :: q =>
    if c = '[' then
      if q = [.mark ']'] then some (.pcm []) else (readSamples q).map .pcm
    else none
  | [.word ['z', 'e', 'r', 'o', 's'], .mark c1, .word w, .mark c2] =>
    if c1 = '(' ∧ c2 = ')' then (readNumber w).map .zeros else none
  | _ => none

/-- The terms between the `++` of an operand, `term` being the tokens of the first term read so far. -/
def splitTerms (term : List AsmToken) : List AsmToken → List (List AsmToken)
  | [] => [term]
  | .concat :: q => term :: splitTerms [] q
  | .word w :: q => splitTerms (term ++ [.word w]) q
  | .mark c :: q => splitTerms (term ++ [.mark c]) q

/-- The concatenation of terms. -/
def readTerms : List (List AsmToken) → Option AsmOperand
  | [] => none
  | [t] => readTerm t
  | t :: rest =>
    match readTerm t, readTerms rest with
    | some q1, some q2 => some (.cat q1 q2)
    | _, _ => none

/-- The operand of a line, empty when none is written. -/
def readOperand (q : List AsmToken) : Option AsmOperand :=
  if q.isEmpty then some (.bytes []) else readTerms (splitTerms [] q)

/-- A register name of REG_READ (R76). -/
def regName (letters : List Char) : Option RegName :=
  if letters = ['C', 'T', 'R', 'L'] then some .ctrl
  else if letters = ['S', 'T', 'A', 'T', 'U', 'S'] then some .status
  else if letters = ['R', 'X', '_', 'C', 'O', 'U', 'N', 'T'] then some .rxCount
  else if letters = ['R', 'X', '_', 'E', 'X', 'P', 'E', 'C', 'T', 'E', 'D'] then some .rxExpected
  else if letters = ['M', 'S', 'G', '_', 'C', 'O', 'U', 'N', 'T'] then some .msgCount
  else if letters = ['C', 'A', 'P', 'A', 'C', 'I', 'T', 'Y'] then some .capacity
  else if letters = ['S', 'Y', 'N', 'C'] then some .sync
  else none

/-- REG_READ's argument: a name or an 8-bit number. -/
def readRegister (letters : List Char) : Option RegOperand :=
  match regName letters with
  | some r => some (.name r)
  | none => (readField 8 letters).map .number

/-- CACHE_READ's argument. -/
def readSelector (letters : List Char) : Option CacheSelector :=
  if letters = ['P', 'A', 'Y', 'L', 'O', 'A', 'D'] then some .payload
  else if letters = ['S', 'A', 'M', 'P', 'L', 'E', 'S'] then some .samples
  else none

/-- A mnemonic of a command without an argument. -/
def plainHead (letters : List Char) : Option AsmHead :=
  if letters = ['D', 'E', 'C', 'O', 'D', 'E'] then some .decode
  else if letters = ['E', 'N', 'C', 'O', 'D', 'E'] then some .encode
  else if letters = ['F', 'R', 'A', 'M', 'E', '_', 'B', 'U', 'I', 'L', 'D'] then some .frameBuild
  else if letters = ['R', 'X', '_', 'F', 'R', 'A', 'G', 'M', 'E', 'N', 'T'] then some .rxFragment
  else if letters = ['R', 'X', '_', 'R', 'E', 'S', 'E', 'T'] then some .rxReset
  else none

/-- A mnemonic with its argument. -/
def argumentHead (letters arg : List Char) : Option AsmHead :=
  if letters = ['C', 'A', 'C', 'H', 'E', '_', 'R', 'E', 'A', 'D'] then (readSelector arg).map .cacheRead
  else if letters = ['C', 'F', 'G', '_', 'W', 'R', 'I', 'T', 'E'] then (readField 16 arg).map .cfgWrite
  else if letters = ['R', 'E', 'G', '_', 'R', 'E', 'A', 'D'] then (readRegister arg).map .regRead
  else if letters = ['S', 'T', 'A', 'T', 'U', 'S', '_', 'C', 'L', 'E', 'A', 'R'] then (readField 8 arg).map .statusClear
  else none

/-- A mnemonic, its argument if it takes one, and what is left for the operand. -/
def readHead (letters : List Char) (q : List AsmToken) : Option (AsmHead × List AsmToken) :=
  match plainHead letters, q with
  | some h, _ => some (h, q)
  | none, .word arg :: rest => (argumentHead letters arg).map fun h => (h, rest)
  | none, _ => none

/-- A line of tokens that starts with a word: a pseudo-command or a command (R76). -/
def readLine (letters : List Char) (q : List AsmToken) : Option AsmLine :=
  if letters = ['S', 'T', 'A', 'T', 'U', 'S', '_', 'C', 'L', 'E', 'A', 'R', '_', 'A', 'L', 'L'] then
    if q.isEmpty then some .statusClearAll else none
  else if letters = ['C', 'F', 'G', '_', 'D', 'E', 'F', 'A', 'U', 'L', 'T'] then
    if q.isEmpty then some .cfgDefault else none
  else if letters = ['R', 'X', '_', 'F', 'R', 'A', 'M', 'E'] then
    if q.isEmpty then none else (readOperand q).map .rxFrame
  else
    match readHead letters q with
    | some (head, rest) => (readOperand rest).map (.command head)
    | none => none

/-- A line of text: `MNEMONIC [argument] [operand]`, with `;` starting a comment (R76). -/
def parseLine (text : List Char) : AsmText :=
  match lexLine [] text with
  | some [] => .blank
  | some (.word letters :: q) =>
    match readLine letters q with
    | some l => .line l
    | none => .malformed
  | _ => .malformed

end Sys2Proof.Machine
end

