-- ==== Sys2Proof/Tests/Slice0.lean ====
section
/-! SUPPORT. The model's own tests. Expected results are the words of 30_encoding.md R73 and the vectors of
95_test_vectors.md, in its test instantiation SYNC_MARKER = (0xA5, 0x5A), RX_CAPACITY = 4096. Each `witness_<Name>` shows
that the hypotheses of `Obligations.<Name>` are met together. -/

namespace Sys2Proof.Tests

open Sys2Proof.Machine

/-- The test instantiation of the parameters (95_test_vectors.md). -/
def testParams : Params := ⟨0xA5#8, 0x5A#8, 4096⟩

/-- The reset state with CTRL and the operand given, in the test instantiation. -/
def testState (ctrl : Word) (op : List Byte) : State := { State.reset with ctrl := ctrl, params := testParams, op := op }

/-- An accumulating state: `buf` received of a frame of `total` bytes. -/
def midFrame (ctrl : Word) (buf op : List Byte) (total : Nat) : State :=
  { testState ctrl op with rxState := .accumulating, rxBuf := buf, rxExpected := some total }

/-- The next state, if there is one. -/
def ran : Host.Outcome State Fault Refusal → Option State
  | .next s => some s
  | .fault _ => none
  | .refused _ => none

/-! ### Well-formedness: an ill-formed term for each check, and its legal neighbour -/

theorem test_wf_selector : (Instr.cacheRead 2#8).wellFormed = false ∧ (Instr.cacheRead 1#8).wellFormed = true := by decide

theorem test_wf_ctrl_value :
    (Instr.cfgWrite 0x0010#16).wellFormed = false ∧ (Instr.cfgWrite 0x000F#16).wellFormed = true := by decide

theorem test_wf_reg_index : (Instr.regRead 7#8).wellFormed = false ∧ (Instr.regRead 6#8).wellFormed = true := by decide

theorem test_wf_clear_mask :
    (Instr.statusClear 0x20#8).wellFormed = false ∧ (Instr.statusClear 0x1F#8).wellFormed = true := by decide

/-! ### Decoding: words written out from the patterns of R73, bit 31 first -/

theorem test_decode_DECODE : decode 0b00000000000000000000000000000001#32 = .ok .decode := by decide

theorem test_decode_ENCODE : decode 0b00000000000000000000000000000010#32 = .ok .encode := by decide

theorem test_decode_FRAME_BUILD : decode 0b00000000000000000000000000000011#32 = .ok .frameBuild := by decide

theorem test_decode_RX_FRAGMENT : decode 0b00000000000000000000000000000100#32 = .ok .rxFragment := by decide

theorem test_decode_RX_RESET : decode 0b00000000000000000000000000000101#32 = .ok .rxReset := by decide

theorem test_decode_CACHE_READ :
    decode 0b00000000000000001010010100000110#32 = .ok (.cacheRead 0b10100101#8) := by decide

theorem test_decode_CFG_WRITE :
    decode 0b10110011000101010000000000010000#32 = .ok (.cfgWrite 0b1011001100010101#16) := by decide

theorem test_decode_REG_READ : decode 0b00000000000000000000010100010001#32 = .ok (.regRead 0b00000101#8) := by decide

theorem test_decode_STATUS_CLEAR :
    decode 0b00000000000000000001110100010010#32 = .ok (.statusClear 0b00011101#8) := by decide

theorem test_decode_rejects :
    decode 0x00000000#32 = .error (.unknownOpcode 0x00#8) ∧ decode 0x00000007#32 = .error (.unknownOpcode 0x07#8) ∧
    decode 0x00000013#32 = .error (.unknownOpcode 0x13#8) ∧ decode 0x00000101#32 = .error (.arg8NotZero 0x01#8) ∧
    decode 0x00010006#32 = .error (.arg16NotZero 0x06#8) ∧ decode 0x00000110#32 = .error (.arg8NotZero 0x10#8) := by
  decide

theorem test_table_word_runs_after_reset :
    decodeTableWord 32 0x00000005 = some .rxReset ∧
    (ran (step (State.reset.withFetchWord 32 0x00000005))).isSome = true := by decide

/-! ### Codec (95_test_vectors.md sections 2 and 3) -/

theorem test_tables : stepTable.length = 89 ∧ indexTable.length = 16 ∧ stepAt 0 = 7 ∧ stepAt 40 = 337 ∧ stepAt 88 = 32767 := by
  decide

theorem test_decodeNibble :
    decodeNibble 1000 40 5#4 = (1463, 44) ∧ decodeNibble 1000 40 12#4 = (621, 42) ∧
    decodeNibble 32767 88 7#4 = (32767, 88) ∧ decodeNibble (-32000) 88 8#4 = (-32768, 87) ∧
    decodeNibble 0 0 8#4 = (0, 0) := by decide

theorem test_encodeSample :
    encodeSample 0 0 100 = (7#4, 11, 8) ∧ encodeSample 1000 40 600 = (12#4, 621, 42) ∧
    encodeSample (-32768) 88 32767 = (7#4, 28668, 88) ∧ encodeSample 0 10 (-5) = (9#4, -6, 9) := by decide

/-- `{10 00 00 00 77}` with TRUNC_PAD = 0: empty OUT and TruncatedBlock. -/
theorem test_DECODE_drops :
    (ran (exec .decode (testState 0x5#32 [0x10#8, 0#8, 0#8, 0#8, 0x77#8]))).map (fun t => (t.out, t.ev, t.status)) =
      some ([], [.error .truncatedBlock], 0x200#32) := by decide +kernel

/-- The same with TRUNC_PAD = 1: 505 samples, 16, 27, 57, 61, 64, ... -/
theorem test_DECODE_pads :
    (ran (exec .decode (testState 0xD#32 [0x10#8, 0#8, 0#8, 0#8, 0x77#8]))).map
      (fun t => (t.out.length, (samplesOf t.out).take 5)) = some (1010, [16, 27, 57, 61, 64]) := by decide +kernel

/-- `ENCODE pcm[0, 100, 200, 150]`. -/
theorem test_ENCODE_block :
    (ran (exec .encode (testState 0x5#32 [0#8, 0#8, 0x64#8, 0#8, 0xC8#8, 0#8, 0x96#8, 0#8]))).map (·.out) =
      some ([0#8, 0#8, 0#8, 0#8, 0x77#8, 0x07#8] ++ zeros 250) := by decide +kernel

theorem test_ENCODE_odd :
    (ran (exec .encode (testState 0x5#32 [0x01#8]))).map (fun t => (t.out, t.ev, t.status)) =
      some ([], [.error .oddByte], 0x1000#32) := by decide +kernel

/-! ### Frame builder (section 4) -/

theorem test_FRAME_BUILD_raw :
    (ran (exec .frameBuild (testState 0x5#32 [1#8, 2#8, 3#8]))).map (fun t => (t.out, t.ev)) =
      some ([0xA5#8, 0x5A#8, 3#8, 0#8, 0#8, 0#8, 1#8, 2#8, 3#8], []) := by decide +kernel

theorem test_FRAME_BUILD_compressed :
    (ran (exec .frameBuild (testState 0x7#32 [0xE8#8, 0x03#8]))).map (·.out) =
      some ([0xA5#8, 0x5A#8, 0#8, 1#8, 0#8, 0#8, 0xE8#8, 0x03#8, 0#8, 0#8] ++ zeros 252) := by decide +kernel

/-! ### Reassembler (section 5) -/

theorem test_RX_FRAGMENT_scan :
    (ran (exec .rxFragment (testState 0x4#32
        [0xFF#8, 0xA5#8, 0#8, 0xA5#8, 0x5A#8, 2#8, 0#8, 0#8, 0#8, 0xAA#8, 0xBB#8, 0xCC#8]))).map
      (fun t => (t.ev, t.status, t.msgCount, t.cache, t.rxBuf)) =
      some ([.error .framingError, .progress, .error .excessDiscarded, .complete [0xAA#8, 0xBB#8] none], 0x900#32, 1#32,
        some ⟨[0xAA#8, 0xBB#8], none⟩, []) := by decide +kernel

theorem test_RX_FRAGMENT_trust :
    (ran (exec .rxFragment (testState 0x0#32 [0xFF#8, 0xA5#8, 0x5A#8, 2#8, 0#8, 0#8, 0#8, 0xAA#8, 0xBB#8]))).map
      (fun t => (t.ev, t.status, t.rxBuf.length, t.rxExpected)) =
      some ([.progress], 0x1#32, 9, some 608) := by decide +kernel

theorem test_RX_RESET :
    (ran (exec .rxReset (midFrame 0x5#32 [0xA5#8, 0x5A#8, 0x0A#8, 0#8, 0#8, 0#8, 1#8, 2#8] [] 16))).map
      (fun t => (t.rxBuf, t.rxExpected, t.status, t.ev)) = some ([], none, 0#32, []) := by decide +kernel

/-- A refused RX_RESET leaves the reassembler accumulating (section 6). -/
theorem test_RX_RESET_refused :
    (ran (exec .rxReset (midFrame 0x5#32 [0xA5#8, 0x5A#8, 4#8, 0#8, 0#8, 0#8, 1#8] [0#8] 10))).map
      (fun t => (t.rxBuf.length, t.rxExpected, t.status, t.ev)) =
      some (7, some 10, 0x401#32, [.error .illegalCommand]) := by decide +kernel

theorem test_CACHE_READ_payload :
    (ran (exec (.cacheRead 0#8) { testState 0x4#32 [] with cache := some ⟨[1#8, 2#8], none⟩ })).map (·.out) =
      some [1#8, 2#8] := by decide +kernel

theorem test_CACHE_READ_refused :
    (ran (exec (.cacheRead 2#8) (testState 0x5#32 []))).map (fun t => (t.out, t.ev)) =
      some ([], [.error .illegalCommand]) := by decide +kernel

/-! ### Control commands (section 6) -/

theorem test_CFG_WRITE :
    (ran (exec (.cfgWrite 0x0001#16) (testState 0x5#32 []))).map (·.ctrl) = some 0x1#32 := by decide +kernel

theorem test_CFG_WRITE_refused :
    (ran (exec (.cfgWrite 0x0010#16) (testState 0x5#32 []))).map (fun t => (t.ctrl, t.status, t.ev)) =
      some (0x5#32, 0x400#32, [.error .illegalCommand]) := by decide +kernel

theorem test_REG_READ_capacity :
    (ran (exec (.regRead 0x05#8) (testState 0x5#32 []))).map (·.out) = some [0#8, 0x10#8, 0#8, 0#8] := by decide +kernel

theorem test_REG_READ_sync :
    (ran (exec (.regRead 0x06#8) (testState 0x5#32 []))).map (·.out) = some [0xA5#8, 0x5A#8, 0#8, 0#8] := by decide +kernel

theorem test_STATUS_CLEAR :
    (ran (exec (.statusClear 0x01#8) { testState 0x5#32 [] with sticky := 0b00011#5 })).map (·.status) =
      some 0x200#32 := by decide +kernel

theorem test_STATUS_CLEAR_refused :
    (ran (exec (.statusClear 0x20#8) { testState 0x5#32 [] with sticky := 0b00011#5 })).map (·.status) =
      some 0x700#32 := by decide +kernel

/-! ### Assembler (R76) -/

theorem test_assembler_line :
    (AsmLine.command .rxFragment (.cat (.bytes [.s0, .s1]) (.cat (.zeros 1) (.pcm [-2])))).action testParams =
      .command 0x00000004#32 [0xA5#8, 0x5A#8, 0#8, 0xFE#8, 0xFF#8] ∧
    AsmLine.statusClearAll.action testParams = .command 0x00001F12#32 [] := by decide

/-- `RX_RESET {00}` (95_test_vectors.md section 7, program 5), with the braces put in. -/
theorem test_parse_operand :
    parseLine ("RX_RESET ".toList ++ [braceOpen] ++ "00".toList ++ [braceClose]) =
      .line (.command .rxReset (.bytes [.lit 0#8])) := by decide +kernel

/-- `ENCODE pcm[0, 100, 200, 150]` (section 7, program 2), here with a negative sample and a comment. -/
theorem test_parse_samples :
    parseLine "ENCODE pcm[0, 100, -200] ; text".toList = .line (.command .encode (.pcm [0, 100, -200])) := by
  decide +kernel

theorem test_parse_concatenation :
    parseLine ("RX_FRAGMENT ".toList ++ [braceOpen] ++ "S0 S1".toList ++ [braceClose] ++ " ++ zeros(3)".toList) =
      .line (.command .rxFragment (.cat (.bytes [.s0, .s1]) (.zeros 3))) := by decide +kernel

theorem test_parse_arguments :
    parseLine "CFG_WRITE 0x0004".toList = .line (.command (.cfgWrite 4#16) (.bytes [])) ∧
    parseLine "REG_READ RX_EXPECTED".toList = .line (.command (.regRead (.name .rxExpected)) (.bytes [])) ∧
    parseLine "CACHE_READ SAMPLES".toList = .line (.command (.cacheRead .samples) (.bytes [])) ∧
    parseLine "STATUS_CLEAR_ALL".toList = .line .statusClearAll := by decide +kernel

theorem test_parse_rejects :
    parseLine "CFG_WRITE 0x10000".toList = .malformed ∧ parseLine "RX_FRAME".toList = .malformed ∧
    parseLine "  ; text".toList = .blank := by decide +kernel

/-! ### Steps -/

theorem test_reset_cancels_transaction :
    (ran (step { testState 0x1#32 [] with
        msgCount := 7#32, inbox := [.reset (some (0x00000010#32, [])), .command 0x00000005#32 []] })).map
      (fun t => (t.ctrl, t.msgCount, t.out, t.ev, t.inbox.length)) = some (0x5#32, 0#32, [], [], 1) := by decide +kernel

theorem test_reserved_word_only_sets_illegal :
    (ran (step ((testState 0x5#32 []).withCommand 0x00000007#32 [1#8]))).map (fun t => (t.out, t.ev, t.status)) =
      some ([], [.error .illegalCommand], 0x400#32) := by decide +kernel

/-! ### Witnesses -/

/-- A state with a buffer waiting for a header and one in the middle of a frame meet the invariant at its bounds. -/
theorem inv_awaiting : ({ testState 0x5#32 [] with rxBuf := [0xA5#8, 0x5A#8, 1#8, 0#8, 0#8] } : State).Inv :=
  ⟨by decide, by decide, (by decide : (5 : Nat) ≤ 5), trivial⟩

theorem inv_accumulating : (midFrame 0x5#32 [0xA5#8, 0x5A#8, 1#8, 0#8, 0#8, 0#8] [7#8] 7).Inv :=
  ⟨by decide, by decide, ⟨by decide, by decide⟩, trivial⟩

theorem witness_EveryCommandHasOneWord : ∃ (w : Word) (i : Instr), decode w = .ok i :=
  ⟨0x00040010#32, .cfgWrite 4#16, by decide⟩

theorem witness_StepRunsDecodedCommand :
    ∃ (s : State) (w : Word) (op : List Byte) (rest : List HostAction) (i : Instr),
      s.inbox = .command w op :: rest ∧ decode w = .ok i :=
  ⟨(testState 5#32 []).withCommand 0x00000004#32 [1#8], 0x00000004#32, [1#8], [], .rxFragment, rfl, by decide⟩

/-- (a) an unknown opcode, or a nonzero argument where the row requires 0. -/
theorem witness_IllegalTransactionIsRefused_a :
    (∀ i, decode 0x00000013#32 ≠ .ok i) ∧ (∀ i, decode 0x00000101#32 ≠ .ok i) ∧ (∀ i, decode 0x00010006#32 ≠ .ok i) := by
  have h := test_decode_rejects
  refine ⟨fun i => ?_, fun i => ?_, fun i => ?_⟩
  · simp [h.2.2.1]
  · simp [h.2.2.2.1]
  · simp [h.2.2.2.2.1]

/-- (b) an operand of one byte for a command that uses none. -/
theorem witness_IllegalTransactionIsRefused_b :
    ∃ i, decode 0x00000005#32 = .ok i ∧ i.usesOperand = false ∧ [0#8] ≠ [] :=
  ⟨.rxReset, by decide, rfl, by simp⟩

/-- (c) an operand of 2^32 bytes. -/
theorem witness_IllegalTransactionIsRefused_c :
    ∃ (i : Instr) (op : List Byte), decode 0x00000001#32 = .ok i ∧ 2 ^ 32 ≤ op.length :=
  ⟨.decode, List.replicate (2 ^ 32) 0#8, by decide, by rw [List.length_replicate]⟩

/-- (d) an argument just above each limit. -/
theorem witness_IllegalTransactionIsRefused_d :
    (∃ i, decode 0x00000206#32 = .ok i ∧ i.wellFormed = false) ∧ (∃ i, decode 0x00100010#32 = .ok i ∧ i.wellFormed = false) ∧
    (∃ i, decode 0x00000711#32 = .ok i ∧ i.wellFormed = false) ∧ (∃ i, decode 0x00002012#32 = .ok i ∧ i.wellFormed = false) :=
  ⟨⟨.cacheRead 2#8, by decide, by decide⟩, ⟨.cfgWrite 0x10#16, by decide, by decide⟩, ⟨.regRead 7#8, by decide, by decide⟩,
    ⟨.statusClear 0x20#8, by decide, by decide⟩⟩

theorem witness_ReservedOpcodeIsRefused :
    (∃ s : State, s.inbox = [.command 0x00000100#32 []]) ∧ (0x00000100#32).toNat % 2 ^ 8 = 0 ∧
    (0x07 ≤ (0x00000007#32).toNat % 2 ^ 8 ∧ (0x0000000F#32).toNat % 2 ^ 8 ≤ 0x0F) ∧ 0x13 ≤ (0x00000013#32).toNat % 2 ^ 8 ∧
    0x13 ≤ (0x000000FF#32).toNat % 2 ^ 8 :=
  ⟨⟨{ State.reset with inbox := [.command 0x00000100#32 []] }, rfl⟩, by decide, by decide, by decide, by decide⟩

theorem witness_LegalCommandIsNotRefused :
    Legal .decode (testState 5#32 [1#8]) ∧ Legal (.cacheRead 1#8) (testState 5#32 []) ∧
    Legal (.cfgWrite 15#16) (testState 5#32 []) ∧ Legal (.regRead 6#8) (testState 5#32 []) ∧
    Legal (.statusClear 31#8) (testState 5#32 []) := by decide

theorem witness_IdleStepHoldsTheState : State.reset.inbox = [] := rfl

theorem witness_StepKeepsParameters : ∃ s t : State, step s = .next t :=
  ⟨(testState 5#32 []).withCommand 0x00000000#32 [], _, rfl⟩

theorem witness_ResetSetsEveryStateValue :
    (∃ (s : State) (rest : List HostAction), s.inbox = .reset none :: rest) ∧
    ∃ (s : State) (tx : Word × List Byte) (rest : List HostAction), s.inbox = .reset (some tx) :: rest :=
  ⟨⟨{ State.reset with inbox := [.reset none] }, [], rfl⟩,
    ⟨{ State.reset with inbox := [.reset (some (4#32, [1#8]))] }, (4#32, [1#8]), [], rfl⟩⟩

/-- The fragment that completes the frame of `inv_accumulating`, as a step. -/
theorem witness_StepKeepsInvariant : ∃ s t : State, s.Inv ∧ step s = .next t :=
  ⟨{ midFrame 0x5#32 [0xA5#8, 0x5A#8, 1#8, 0#8, 0#8, 0#8] [] 7 with inbox := [.command 0x00000004#32 [7#8]] }, _,
    ⟨by decide, by decide, ⟨by decide, by decide⟩, trivial⟩, rfl⟩

theorem witness_ScannedBufferIsMarkerPrefix :
    ∃ s t : State, s.op.length < 2 ^ 32 ∧ s.resyncScan = true ∧ exec .rxFragment s = .next t ∧
      t.rxState = .awaitingHeader ∧ t.rxBuf = [0xA5#8] :=
  ⟨testState 5#32 [0x11#8, 0xA5#8], _, by decide, by decide, rfl, by decide, by decide⟩

theorem witness_OnlyStatusClearClearsStickyBits :
    ∃ (i : Instr) (s t : State), exec i s = .next t ∧ (∀ m, i ≠ .statusClear m) ∧ s.sticky.getLsbD 4 = true :=
  ⟨.rxReset, { testState 5#32 [] with sticky := 0b10000#5 }, _, rfl, by simp, by decide⟩

theorem witness_OnlyCfgWriteWritesCtrl : ∃ (i : Instr) (s t : State), exec i s = .next t ∧ ∀ v, i ≠ .cfgWrite v :=
  ⟨.rxFragment, testState 5#32 [1#8], _, rfl, by simp⟩

theorem witness_OnlyReceiveCommandsWriteReceiveState :
    ∃ (i : Instr) (s t : State), exec i s = .next t ∧ i ≠ .rxFragment ∧ i ≠ .rxReset ∧ s.rxState = .accumulating :=
  ⟨.decode, midFrame 5#32 [0xA5#8, 0x5A#8, 2#8, 0#8, 0#8, 0#8] [] 8, _, rfl, by decide, by decide, rfl⟩

/-- Both clauses: an ERROR event, and a sticky bit newly set. -/
theorem witness_ErrorEventsAndStickyBitsAgree :
    ∃ (i : Instr) (s t : State), exec i s = .next t ∧ Event.error .oddByte ∈ t.ev ∧ t.status.getLsbD 12 = true ∧
      s.status.getLsbD 12 = false :=
  ⟨.encode, testState 5#32 [1#8], _, rfl, by decide, by decide, by decide⟩

theorem witness_EachErrorReportedAtMostOnce :
    ∃ (i : Instr) (s t : State), exec i s = .next t ∧ t.ev.count (.error .illegalCommand) = 1 :=
  ⟨.rxReset, testState 5#32 [1#8], _, rfl, by decide⟩

/-- A completion with MSG_COUNT at its largest value. -/
theorem witness_MessageCountCountsCompletions :
    ∃ (i : Instr) (s t : State), exec i s = .next t ∧ t.ev.countP Event.isComplete = 1 ∧ s.msgCount = 0xFFFFFFFF#32 :=
  ⟨.rxFragment, { testState 0#32 [0#8, 0#8, 0#8, 0#8, 0#8, 0#8] with msgCount := 0xFFFFFFFF#32 }, _, rfl,
    by decide +kernel, rfl⟩

theorem witness_PcmSamplesAreLittleEndian :
    2 * 0 + 1 < [1#8, 2#8, 3#8].length ∧ InSampleRange (-32768) ∧ InSampleRange 32767 := by decide

theorem witness_DecodeNibbleStep : InSampleRange (-32768) ∧ (88 : Nat) ≤ 88 := by decide

theorem witness_DecodeNibbleStaysInRange : InSampleRange 32767 ∧ (88 : Nat) ≤ 88 := by decide

theorem witness_EncodeSampleQuantizes : InSampleRange (-32768) ∧ (88 : Nat) ≤ 88 ∧ InSampleRange 32767 := by decide

theorem witness_DecodeBlockGivesEverySample : (zeros 256).length = 256 ∧ 504 ≤ 504 := by simp

theorem witness_DecoderIgnoresReservedAndClampsIndex :
    (zeros 256).length = 256 ∧ 88 ≤ (88#8).toNat ∧ 88 ≤ (255#8).toNat := by simp

theorem witness_DecodeStreamGoesBlockByBlock :
    (zeros 256).length = 256 ∧ 0 < (zeros 1).length ∧ (zeros 255).length < 256 := by simp

theorem witness_EncodeBlockLayout :
    (List.replicate 503 (0 : Int)).length + 1 ≤ 504 ∧ 502 < (List.replicate 503 (0 : Int)).length ∧
    (List.replicate 503 (0 : Int)).length ≤ 503 ∧ 503 < 504 := by
  simp only [List.length_replicate]
  omega

/-- Each clause at its bounds: a whole block's bytes, the shortest and the longest last block with an odd byte, no sample;
and the same in samples. -/
theorem witness_EncodeStreamGoesBlockByBlock :
    (zeros 1008).length = 1008 ∧ (2 ≤ (zeros 2).length ∧ (zeros 2).length ≤ 1009) ∧
    (2 ≤ (zeros 1009).length ∧ (zeros 1009).length ≤ 1009) ∧ (zeros 1).length < 2 ∧
    (List.replicate 504 (0 : Int)).length = 504 ∧ 0 < [(5 : Int)].length ∧ [(5 : Int)].length ≤ 504 := by
  simp only [zeros_length, List.length_replicate]
  decide

theorem witness_FirstStepFromZeroIsAtMostEleven :
    InSampleRange (-32768) ∧ InSampleRange 32767 ∧ (List.replicate 502 (0 : Int)).length + 2 ≤ 504 := by
  simp only [List.length_replicate]
  decide

theorem witness_DecoderFollowsEncoder :
    [(32767 : Int), -32768].length + 1 ≤ 504 ∧ InSampleRange 0 ∧ ∀ v ∈ [(32767 : Int), -32768], InSampleRange v := by
  decide

/-- The refusal clause of the commands that use an operand: one of 2^32 bytes. -/
theorem witness_longOperand : ∃ s : State, 2 ^ 32 ≤ s.op.length :=
  ⟨testState 5#32 (List.replicate (2 ^ 32) 0#8), by rw [testState, List.length_replicate]⟩

/-- The refusal clause of the commands that use none: one of one byte. -/
theorem witness_unusedOperand : ∃ s : State, s.op ≠ [] := ⟨testState 5#32 [0#8], by decide⟩

theorem witness_DecodeAnswersDecodedSamples : (testState 0xD#32 [1#8]).op.length < 2 ^ 32 := by decide

theorem witness_DecodeOutputLength :
    (testState 0xD#32 [1#8]).op.length < 2 ^ 32 ∧ (testState 0xD#32 [1#8]).truncPad = true := by decide

theorem witness_EncodeAnswersEncodedBlocks : (testState 5#32 [1#8]).op.length < 2 ^ 32 := by decide

theorem witness_FrameBuildAnswersFrame :
    ((testState 5#32 [1#8]).op.length < 2 ^ 32 ∧ (testState 5#32 [1#8]).txCompressed = false) ∧
    (testState 7#32 [1#8]).op.length < 2 ^ 32 ∧ (testState 7#32 [1#8]).txCompressed = true := by decide

theorem witness_FrameLengthFieldIsAuthoritative :
    (testState 7#32 [1#8, 2#8]).op.length < 2 ^ 32 ∧ (testState 7#32 [1#8, 2#8]).txCompressed = true := by decide

/-- One byte short of the frame. -/
theorem witness_FragmentAccumulates :
    let s := midFrame 5#32 [0xA5#8, 0x5A#8, 2#8, 0#8, 0#8, 0#8] [7#8] 8
    s.op.length < 2 ^ 32 ∧ s.rxState = .accumulating ∧ s.rxExpected = some 8 ∧ (s.rxBuf ++ s.op).length < 8 := by decide

/-- Exactly the frame. -/
theorem witness_FragmentCompletesFrame :
    let s := midFrame 5#32 [0xA5#8, 0x5A#8, 2#8, 0#8, 0#8, 0#8, 7#8] [8#8] 8
    s.op.length < 2 ^ 32 ∧ s.rxState = .accumulating ∧ s.rxExpected = some 8 ∧ 8 ≤ (s.rxBuf ++ s.op).length := by decide

/-- The four clauses: 5 bytes; a length one above the capacity; a plausible length at the capacity, incomplete; and a
complete frame. -/
theorem witness_TrustedHeaderPhase :
    let base (op : List Byte) : State := testState 0#32 op
    let short := base [0#8, 0#8, 0#8, 0#8, 0#8]
    let above := base [0#8, 0#8, 0xFB#8, 0x0F#8, 0#8, 0#8]
    let atLimit := base [0#8, 0#8, 0xFA#8, 0x0F#8, 0#8, 0#8]
    let whole := base [0#8, 0#8, 0#8, 0#8, 0#8, 0#8]
    (∀ s ∈ [short, above, atLimit, whole],
      s.op.length < 2 ^ 32 ∧ s.rxState = .awaitingHeader ∧ s.resyncScan = false) ∧
    (short.rxBuf ++ short.op).length < 6 ∧
    (6 ≤ (above.rxBuf ++ above.op).length ∧ above.params.rxCapacity < 6 + le32 (above.rxBuf ++ above.op) 2) ∧
    (6 ≤ (atLimit.rxBuf ++ atLimit.op).length ∧ 6 + le32 (atLimit.rxBuf ++ atLimit.op) 2 ≤ atLimit.params.rxCapacity ∧
      (atLimit.rxBuf ++ atLimit.op).length < 6 + le32 (atLimit.rxBuf ++ atLimit.op) 2) ∧
    (6 ≤ (whole.rxBuf ++ whole.op).length ∧ 6 + le32 (whole.rxBuf ++ whole.op) 2 ≤ whole.params.rxCapacity ∧
      6 + le32 (whole.rxBuf ++ whole.op) 2 ≤ (whole.rxBuf ++ whole.op).length) := by decide +kernel

/-- The three clauses, each after one dropped byte: a short marker prefix, an incomplete frame, a complete frame. -/
theorem witness_ScannedHeaderPhase :
    let short := testState 4#32 [0#8, 0xA5#8]
    let partial' := testState 4#32 [0#8, 0xA5#8, 0x5A#8, 1#8, 0#8, 0#8, 0#8]
    let whole := testState 4#32 [0#8, 0xA5#8, 0x5A#8, 0#8, 0#8, 0#8, 0#8]
    ∀ s ∈ [short, partial', whole],
      s.op.length < 2 ^ 32 ∧ s.rxState = .awaitingHeader ∧ s.resyncScan = true ∧ 1 ≤ (s.rxBuf ++ s.op).length ∧
      ScanStops s.params ((s.rxBuf ++ s.op).drop 1) ∧ ∀ j, j < 1 → ¬ ScanStops s.params ((s.rxBuf ++ s.op).drop j) := by
  unfold ScanStops
  decide +kernel

theorem witness_FragmentEventOrder : (testState 5#32 [0#8]).op.length < 2 ^ 32 := by decide

theorem witness_EmptyFragmentChangesNothing :
    let s : State := { testState 0x5#32 [] with rxBuf := [0xA5#8, 0x5A#8, 1#8, 0#8, 0#8] }
    s.Inv ∧ s.op = [] ∧ markerPrefix s.params s.rxBuf = true :=
  ⟨inv_awaiting, rfl, by decide⟩

theorem witness_CompletionIsCachedAndWhole :
    ∃ (s t : State) (p : List Byte) (d : Option (List Byte)), s.Inv ∧ exec .rxFragment s = .next t ∧
      Event.complete p d ∈ t.ev ∧ s.rxExpected = some 7 :=
  ⟨midFrame 0x4#32 [0xA5#8, 0x5A#8, 1#8, 0#8, 0#8, 0#8] [7#8] 7, _, [7#8], none, ⟨by decide, by decide, ⟨by decide, by decide⟩, trivial⟩,
    rfl, by decide +kernel, rfl⟩

/-- A one-byte payload split inside the header, with an empty fragment after the last byte. -/
theorem witness_AnySplitCompletesOnce :
    let frags : List (List Byte) := [[0xA5#8], [0x5A#8, 1#8, 0#8]]
    let last : List Byte := [0#8, 0#8, 7#8]
    let s : State := { testState 0x5#32 [] with inbox := fragmentActions (frags ++ last :: [[]]) ++ [] }
    s.params.wf ∧ s.rxState = .awaitingHeader ∧ s.rxExpected = none ∧ s.rxBuf = [] ∧
    6 + [7#8].length ≤ s.params.rxCapacity ∧
    (frags ++ last :: [[]]).flatten = [s.params.sync0, s.params.sync1] ++ u32le (BitVec.ofNat 32 [7#8].length) ++ [7#8] ∧
    frags.flatten.length < 6 + [7#8].length ∧ 6 + [7#8].length ≤ frags.flatten.length + last.length ∧
    s.inbox = fragmentActions (frags ++ last :: [[]]) ++ [] := by decide +kernel

theorem witness_BuiltFrameIsReceivedOnce :
    ∃ (u b s : State) (fragments : List (List Byte)), u.op.length < 2 ^ 32 ∧ exec .frameBuild u = .next b ∧
      s.params = u.params ∧ s.params.wf ∧ s.rxState = .awaitingHeader ∧ s.rxExpected = none ∧ s.rxBuf = [] ∧
      b.out.length ≤ s.params.rxCapacity ∧ fragments.flatten = b.out ∧ s.inbox = fragmentActions fragments ++ [] :=
  ⟨testState 5#32 [7#8], _,
    { testState 5#32 [] with inbox := fragmentActions [[0xA5#8, 0x5A#8, 1#8], [0#8, 0#8, 0#8, 7#8]] },
    [[0xA5#8, 0x5A#8, 1#8], [0#8, 0#8, 0#8, 7#8]], by decide, rfl, rfl, by decide, rfl, rfl, rfl, by decide, by decide, rfl⟩

theorem witness_RxResetClearsReceiveState : (midFrame 5#32 [0#8] [] 9).op = [] := rfl

/-- Each clause: an empty cache, a cached payload without and with samples, the selectors 1 and 2. -/
theorem witness_CacheReadReturnsCachedBytes :
    (testState 5#32 []).op = [] ∧ (testState 5#32 []).cache = none ∧ (1#8).toNat ≤ 1 ∧ 1 < (2#8).toNat ∧
    ({ testState 5#32 [] with cache := some ⟨[1#8], none⟩ } : State).cache = some ⟨[1#8], none⟩ ∧
    ({ testState 5#32 [] with cache := some ⟨[1#8], some [2#8]⟩ } : State).cache = some ⟨[1#8], some [2#8]⟩ := by decide

theorem witness_CfgWriteStoresValue :
    (testState 5#32 []).op = [] ∧ (15#16).toNat < 16 ∧ 16 ≤ (16#16).toNat := by decide

theorem witness_RegReadReturnsRegister :
    (testState 5#32 []).op = [] ∧ (0#8).toNat ≤ 6 ∧ (6#8).toNat ≤ 6 ∧ 7 ≤ (7#8).toNat := by decide

theorem witness_ReceiveCountersFitTheirRegisters : ∃ s : State, s.Inv ∧ s.rxExpected = some 7 :=
  ⟨_, inv_accumulating, rfl⟩

theorem witness_StatusClearClearsSelectedBits :
    (testState 5#32 []).op = [] ∧ (31#8).toNat < 32 ∧ 32 ≤ (32#8).toNat := by decide

theorem witness_ReadsAreIdempotent :
    (∃ s t : State, exec (.regRead 1#8) s = .next t) ∧ ∃ s t : State, exec (.cacheRead 1#8) s = .next t :=
  ⟨⟨testState 5#32 [], _, rfl⟩, ⟨testState 5#32 [], _, rfl⟩⟩

theorem witness_ReadSeesPrecedingWrite :
    ∃ (s : State) (v : Half) (rest : List HostAction), v.toNat < 16 ∧
      s.inbox = .command (encode (.cfgWrite v)) [] :: .command (encode (.regRead 0x00#8)) [] :: rest :=
  ⟨{ testState 5#32 [] with inbox := [.command (encode (.cfgWrite 15#16)) [], .command (encode (.regRead 0x00#8)) []] },
    15#16, [], by decide, rfl⟩

theorem witness_CacheReadSeesPrecedingCompletion :
    ∃ (s t : State) (f p : List Byte) (d : Option (List Byte)),
      s.inbox = [.command (encode .rxFragment) f, .command (encode (.cacheRead 0#8)) []] ∧ step s = .next t ∧
      Event.complete p d ∈ t.ev :=
  ⟨{ midFrame 0x4#32 [0xA5#8, 0x5A#8, 1#8, 0#8, 0#8, 0#8] [] 7 with
      inbox := [.command (encode .rxFragment) [7#8], .command (encode (.cacheRead 0#8)) []] }, _, [7#8], [7#8], none, rfl, rfl,
    by decide +kernel⟩

end Sys2Proof.Tests
end

section
/-! PROOFS. 00_scope.md: what a step does with no host action pending. -/

namespace Sys2Proof.Machine

/-- Settles O11: an empty inbox is fetched as `.idle`, whose arm of `step` answers the state as it is (R15, R214; log 2). -/
theorem idleStepHoldsTheState : Obligations.IdleStepHoldsTheState := by
  intro s hinbox
  have hidle : fetch s = .idle := fetch_nil hinbox
  rw [step, hidle]

end Sys2Proof.Machine
end

section
/-! PROOFS. 10_state.md: what a command and a step can do, who writes each piece of state, STATUS, the sticky
bits and MSG_COUNT. -/

namespace Sys2Proof.Machine

/-! ### What a command and a step can do -/

/-- FRAME_BUILD, like the codec's commands, makes one report under a condition and then returns its bytes (R130). -/
theorem frameBuildEffect_eq (s : State) :
    frameBuildEffect s =
      (s.raiseIf (s.txCompressed && oddLength s.op) .oddByte).output
        (buildFrame s.params (if s.txCompressed then encodeStream s.op else s.op)) := by
  cases h : s.txCompressed <;> simp [frameBuildEffect, h, State.raiseIf]

/-- What a command can leave, by what it writes: most commands, and every refused transaction, write nothing but their
answer and the sticky bit of one report (R21, "written by"). -/
inductive CommandWrites (s : State) : Instr → State → Prop where
  /-- a report of `k` if `c` holds, and the bytes `q`: a refused transaction, or any command not named below -/
  | answer (i : Instr) (c : Bool) (k : ErrorKind) (q : List Byte) :
      CommandWrites s i ((s.beginAnswer.raiseIf c k).output q)
  /-- RX_FRAGMENT -/
  | receive : CommandWrites s .rxFragment (rxFragmentEffect s.beginAnswer)
  /-- RX_RESET -/
  | clearReceive : CommandWrites s .rxReset (rxResetEffect s.beginAnswer)
  /-- CFG_WRITE of a legal value -/
  | configure (v : Half) (hv : v.toNat < 2 ^ 4) : CommandWrites s (.cfgWrite v) (cfgWriteEffect v s.beginAnswer)
  /-- STATUS_CLEAR -/
  | clearStatus (m : Byte) : CommandWrites s (.statusClear m) (statusClearEffect m s.beginAnswer)

theorem effectOf_writes {i : Instr} {s : State} (h : Legal i s) : CommandWrites s i (effectOf i s.beginAnswer) := by
  cases i with
  | decode => exact .answer _ _ _ _
  | encode => exact .answer _ _ _ _
  | frameBuild => rw [effectOf, frameBuildEffect_eq]; exact .answer _ _ _ _
  | rxFragment => exact .receive
  | rxReset => exact .clearReceive
  -- The two reads report nothing, so the kind of the report is any.
  | cacheRead selector => exact .answer _ false .oddByte _
  | cfgWrite v => exact .configure v (of_decide_eq_true h.1)
  | regRead index => exact .answer _ false .oddByte _
  | statusClear m => exact .clearStatus m

theorem exec_writes {i : Instr} {s t : State} (h : exec i s = .next t) : CommandWrites s i t := by
  obtain ⟨hlegal, rfl⟩ | ⟨-, rfl⟩ := exec_cases h
  · exact effectOf_writes hlegal
  · exact .answer i true .illegalCommand []

/-- What a step can do: nothing, a reset, a refusal of a word that does not decode, or the command it decodes to. -/
theorem step_cases {s t : State} (h : step s = .next t) :
    (s.inbox = [] ∧ t = s) ∨
    (∃ c rest, s.inbox = .reset c :: rest ∧ t = State.hostReset { s with inbox := rest }) ∨
    (∃ cmd op rest, s.inbox = .command cmd op :: rest ∧ t = State.refused { s with inbox := rest, op := op }) ∨
    (∃ cmd op rest i, s.inbox = .command cmd op :: rest ∧ exec i { s with inbox := rest, op := op } = .next t) := by
  unfold step at h
  match hin : s.inbox with
  | [] => rw [fetch_nil hin] at h; exact .inl ⟨rfl, (Host.Outcome.next.inj h).symm⟩
  | .reset c :: rest =>
    rw [fetch_reset hin] at h; exact .inr (.inl ⟨c, rest, rfl, (Host.Outcome.next.inj h).symm⟩)
  | .command cmd op :: rest =>
    rw [fetch_command hin] at h
    cases hdec : decode cmd with
    | error e => simp only [hdec] at h; exact .inr (.inr (.inl ⟨cmd, op, rest, rfl, (Host.Outcome.next.inj h).symm⟩))
    | ok i => simp only [hdec] at h; exact .inr (.inr (.inr ⟨cmd, op, rest, i, rfl, h⟩))

/-! ### What RX_FRAGMENT's phases write and leave unchanged -/

section Phases
variable (s : State)

@[simp] theorem headerPhase_ctrl : (headerPhase s).ctrl = s.ctrl := by
  cases h : s.rxState <;> simp [headerPhase, h]
@[simp] theorem headerPhase_cache : (headerPhase s).cache = s.cache := by
  cases h : s.rxState <;> simp [headerPhase, h]
@[simp] theorem headerPhase_msgCount : (headerPhase s).msgCount = s.msgCount := by
  cases h : s.rxState <;> simp [headerPhase, h]
@[simp] theorem headerPhase_params : (headerPhase s).params = s.params := by
  cases h : s.rxState <;> simp [headerPhase, h]
@[simp] theorem headerPhase_inbox : (headerPhase s).inbox = s.inbox := by
  cases h : s.rxState <;> simp [headerPhase, h]

variable (total : Nat)

@[simp] theorem completeFrame_ctrl : (completeFrame total s).ctrl = s.ctrl := by simp [completeFrame]
@[simp] theorem completeFrame_rxState : (completeFrame total s).rxState = .awaitingHeader := by simp [completeFrame]
@[simp] theorem completeFrame_rxBuf : (completeFrame total s).rxBuf = [] := by simp [completeFrame]
@[simp] theorem completeFrame_rxExpected : (completeFrame total s).rxExpected = none := by simp [completeFrame]
@[simp] theorem completeFrame_cache :
    (completeFrame total s).cache =
      some ⟨framePayload s.rxBuf total, s.decodedPayload (framePayload s.rxBuf total)⟩ := by simp [completeFrame]
@[simp] theorem completeFrame_msgCount : (completeFrame total s).msgCount = s.msgCount + 1#32 := by simp [completeFrame]
@[simp] theorem completeFrame_params : (completeFrame total s).params = s.params := by simp [completeFrame]
@[simp] theorem completeFrame_inbox : (completeFrame total s).inbox = s.inbox := by simp [completeFrame]

@[simp] theorem completionPhase_ctrl : (completionPhase s).ctrl = s.ctrl := by
  obtain ⟨total, -, -, -, heq⟩ | ⟨-, heq⟩ := completionPhase_cases s <;> simp [heq]
@[simp] theorem completionPhase_params : (completionPhase s).params = s.params := by
  obtain ⟨total, -, -, -, heq⟩ | ⟨-, heq⟩ := completionPhase_cases s <;> simp [heq]
@[simp] theorem completionPhase_inbox : (completionPhase s).inbox = s.inbox := by
  obtain ⟨total, -, -, -, heq⟩ | ⟨-, heq⟩ := completionPhase_cases s <;> simp [heq]

@[simp] theorem rxFragmentEffect_ctrl : (rxFragmentEffect s).ctrl = s.ctrl := by simp [rxFragmentEffect]
@[simp] theorem rxFragmentEffect_params : (rxFragmentEffect s).params = s.params := by simp [rxFragmentEffect]
@[simp] theorem rxFragmentEffect_inbox : (rxFragmentEffect s).inbox = s.inbox := by simp [rxFragmentEffect]

end Phases

/-! ### The frames of the commands and of a step -/

/-- Settles O20: of what a command can leave, only CFG_WRITE's effect has another CTRL. -/
theorem onlyCfgWriteWritesCtrl : Obligations.OnlyCfgWriteWritesCtrl := by
  intro i s t h hi
  cases exec_writes h with
  | answer i c k q => simp
  | receive => simp
  | clearReceive => simp
  | configure v hv => exact absurd rfl (hi v)
  | clearStatus m => simp

/-- Settles O21: of what a command can leave, only the effects of RX_FRAGMENT and RX_RESET have another receive state,
and only the first another MSG_COUNT. -/
theorem onlyReceiveCommandsWriteReceiveState : Obligations.OnlyReceiveCommandsWriteReceiveState := by
  intro i s t h hi
  cases exec_writes h with
  | answer i c k q => simp
  | receive => exact absurd rfl hi
  | clearReceive => simp
  | configure v hv => simp
  | clearStatus m => simp

theorem exec_params_inbox {i : Instr} {s t : State} (h : exec i s = .next t) :
    t.params = s.params ∧ t.inbox = s.inbox := by
  cases exec_writes h with
  | answer i c k q => simp
  | receive => simp
  | clearReceive => simp
  | configure v hv => simp
  | clearStatus m => simp

/-- Settles O12: the step takes the host's action, and neither a reset, a refusal nor a command changes the parameters
or the actions left. -/
theorem stepKeepsParameters : Obligations.StepKeepsParameters := by
  intro s t h
  obtain ⟨hin, rfl⟩ | ⟨c, rest, hin, rfl⟩ | ⟨cmd, op, rest, hin, rfl⟩ | ⟨cmd, op, rest, i, hin, hexec⟩ := step_cases h
  · simp [hin]
  · simp [hin]
  · simp [hin]
  · simpa [hin] using exec_params_inbox hexec

/-! ### STATUS -/

/-- R23: the two fields of STATUS do not overlap. -/
theorem status_toNat (s : State) : s.status.toNat = 2 ^ 8 * s.sticky.toNat + s.rxState.code.toNat := by
  have hsticky := s.sticky.isLt
  have hcode := s.rxState.code.isLt
  have hor := Nat.two_pow_add_eq_or_of_lt (i := 8) (b := s.rxState.code.toNat) (by omega) s.sticky.toNat
  rw [hor, State.status, BitVec.toNat_or, BitVec.toNat_shiftLeft, BitVec.toNat_setWidth, BitVec.toNat_setWidth,
    Nat.mod_eq_of_lt (by omega), Nat.mod_eq_of_lt (by omega), Nat.shiftLeft_eq, Nat.mul_comm,
    Nat.mod_eq_of_lt (by omega)]

/-- Settles O18: RX_STATE's code is 1 in ACCUMULATING and 0 otherwise, and stands below bit 8. -/
theorem statusRegisterLayout : Obligations.StatusRegisterLayout := by
  intro s
  rw [status_toNat]
  cases s.rxState with
  | awaitingHeader => simp [RxState.code]
  | accumulating => simp [RxState.code]; omega

/-! ### The sticky bits -/

theorem raiseIf_keeps_sticky {s : State} {j : Nat} (c : Bool) (k : ErrorKind) (h : s.sticky.getLsbD j = true) :
    (s.raiseIf c k).sticky.getLsbD j = true := by
  cases c <;> simp [h]

theorem headerPhase_keeps_sticky {s : State} {j : Nat} (h : s.sticky.getLsbD j = true) :
    (headerPhase s).sticky.getLsbD j = true := by
  cases hst : s.rxState with
  | accumulating => rwa [headerPhase_accumulating hst]
  | awaitingHeader => rw [headerPhase_awaiting hst]; exact raiseIf_keeps_sticky _ _ (by simpa using h)

theorem completeFrame_keeps_sticky {s : State} {j : Nat} (total : Nat) (h : s.sticky.getLsbD j = true) :
    (completeFrame total s).sticky.getLsbD j = true :=
  raiseIf_keeps_sticky _ .truncatedBlock (raiseIf_keeps_sticky _ .excessDiscarded h)

theorem completionPhase_keeps_sticky {s : State} {j : Nat} (h : s.sticky.getLsbD j = true) :
    (completionPhase s).sticky.getLsbD j = true := by
  obtain ⟨total, -, -, -, heq⟩ | ⟨-, heq⟩ := completionPhase_cases s
  · rw [heq]; exact completeFrame_keeps_sticky total h
  · rwa [heq]

/-- Settles O19: every report sets a sticky bit and none clears one; only STATUS_CLEAR's effect does. -/
theorem onlyStatusClearClearsStickyBits : Obligations.OnlyStatusClearClearsStickyBits := by
  intro i s t h hi j hj
  cases exec_writes h with
  | answer i c k q => exact raiseIf_keeps_sticky c k hj
  | receive => exact completionPhase_keeps_sticky (headerPhase_keeps_sticky hj)
  | clearReceive => exact hj
  | configure v hv => exact hj
  | clearStatus m => exact absurd rfl (hi m)

/-! ### MSG_COUNT -/

/-- A report is no COMPLETE. -/
@[simp] theorem countP_complete_report (c : Bool) (k : ErrorKind) :
    (if c = true then [Event.error k] else []).countP Event.isComplete = 0 := by
  cases c <;> rfl

theorem headerPhase_countP_complete (s : State) :
    (headerPhase s).ev.countP Event.isComplete = s.ev.countP Event.isComplete := by
  cases hst : s.rxState with
  | accumulating => rw [headerPhase_accumulating hst]
  | awaitingHeader => simp [headerPhase_awaiting hst]

theorem completeFrame_countP_complete (total : Nat) (s : State) :
    (completeFrame total s).ev.countP Event.isComplete = s.ev.countP Event.isComplete + 1 := by
  simp only [completeFrame, rearm_ev, recordFrame_ev, raiseIf_ev, List.countP_append, countP_complete_report,
    List.countP_singleton, Event.isComplete, if_true, Nat.add_zero]

theorem msgCount_without_completion {s t : State} (hcount : t.msgCount = s.msgCount)
    (hev : t.ev.countP Event.isComplete = 0) :
    t.msgCount.toNat = (s.msgCount.toNat + t.ev.countP Event.isComplete) % 2 ^ 32 := by
  rw [hcount, hev, Nat.add_zero, Nat.mod_eq_of_lt s.msgCount.isLt]

/-- A completion adds one to MSG_COUNT and appends one COMPLETE (R146). -/
theorem completionPhase_msgCount {s : State} (h : s.ev.countP Event.isComplete = 0) :
    (completionPhase s).msgCount.toNat =
      (s.msgCount.toNat + (completionPhase s).ev.countP Event.isComplete) % 2 ^ 32 := by
  obtain ⟨total, -, -, -, heq⟩ | ⟨-, heq⟩ := completionPhase_cases s
  · simp [heq, completeFrame_countP_complete, h]
  · rw [heq]; exact msgCount_without_completion rfl h

theorem rxFragmentEffect_msgCount {s : State} (h : s.ev = []) :
    (rxFragmentEffect s).msgCount.toNat =
      (s.msgCount.toNat + (rxFragmentEffect s).ev.countP Event.isComplete) % 2 ^ 32 := by
  have hnone : ((headerPhase s.appendFragment).emit .progress).ev.countP Event.isComplete = 0 := by
    simp [headerPhase_countP_complete, h, Event.isComplete]
  simpa only [rxFragmentEffect, emit_msgCount, headerPhase_msgCount, appendFragment_msgCount] using
    completionPhase_msgCount hnone

/-- Settles O24: RX_FRAGMENT counts the COMPLETE it emits; no other command emits one or changes MSG_COUNT. -/
theorem messageCountCountsCompletions : Obligations.MessageCountCountsCompletions := by
  refine ⟨rfl, fun s => rfl, fun i s t h => ?_⟩
  cases exec_writes h with
  | answer i c k q => exact msgCount_without_completion (by simp) (by simp)
  | receive => exact rxFragmentEffect_msgCount rfl
  | clearReceive => exact msgCount_without_completion rfl rfl
  | configure v hv => exact msgCount_without_completion rfl rfl
  | clearStatus m => exact msgCount_without_completion rfl rfl

end Sys2Proof.Machine
end

section
/-! PROOFS. 10_state.md section 5 and 40_codec.md R103, R106: the ranges of the codec's running values and the length
of a decoded stream. -/

namespace Sys2Proof.Machine

theorem stepAt_le {idx : Nat} (h : idx ≤ 88) : stepAt idx ≤ 32767 := by
  have hall : ∀ i < 89, stepAt i ≤ 32767 := by decide
  exact hall idx (by omega)

/-- The magnitude is largest when the code has all three magnitude bits. -/
theorem codeMagnitude_le (step : Nat) (n : Nibble) :
    codeMagnitude step n ≤ step / 8 + step / 4 + step / 2 + step := by
  unfold codeMagnitude
  simp only [Nat.shiftRight_eq_div_pow]
  split <;> split <;> split <;> omega

/-- Settles O27: both results are clamped, and the magnitude at the largest step, 32767, is
4095 + 8191 + 16383 + 32767 (R103). -/
theorem decodeNibbleStaysInRange : Obligations.DecodeNibbleStaysInRange := by
  intro pred idx n ⟨hlo, hhi⟩ hidx
  have hmag : codeMagnitude (stepAt idx) n ≤ 61436 := by
    have hstep := stepAt_le hidx
    have hsum := codeMagnitude_le (stepAt idx) n
    omega
  have hindex : (decodeNibble pred idx n).2 ≤ 88 :=
    Int.toNat_le.mpr (clamp_le (lo := 0) (hi := stepIndexMax) (by decide))
  exact ⟨⟨clamp_ge (by decide), clamp_le (by decide)⟩, hindex, hmag, by omega, by omega⟩

/-- R104: a whole block has 505 samples. -/
theorem decodeBlock_length {block : List Byte} (h : block.length = 256) : (decodeBlock block).length = 505 := by
  simp [decodeBlock, blockCodes, h]

/-- R106: the whole blocks of a stream decode to 505 samples each. -/
theorem decodeWholeBlocks_length (q : List Byte) : (decodeWholeBlocks q).length = 505 * (q.length / 256) := by
  have hblock : ∀ j ∈ List.range (q.length / 256), (decodeBlock (slice q (256 * j) 256)).length = 505 := by
    intro j hj
    have hlt := List.mem_range.mp hj
    exact decodeBlock_length (by rw [slice_length]; omega)
  rw [decodeWholeBlocks, List.length_flatMap, List.map_congr_left hblock]
  simp [Nat.mul_comm]

theorem paddedTail_length (q : List Byte) : (paddedTail q).length = 256 := by
  simp [paddedTail]; omega

/-- R106: a stream decodes to 505 samples for each whole block, and 505 more for a padded tail. -/
theorem decodeStream_length (pad : Bool) (q : List Byte) :
    (decodeStream pad q).length = 505 * (q.length / 256 + if truncated q && pad then 1 else 0) := by
  rw [decodeStream, List.length_append, decodeWholeBlocks_length, Nat.mul_add]
  cases truncated q && pad with
  | false => rfl
  | true => simp [decodeBlock_length (paddedTail_length q)]

/-- The PCM bytes of a completed payload are whole decoded blocks (R110, R143). -/
theorem decodedPayload_length_mod {s : State} {payload d : List Byte} (h : s.decodedPayload payload = some d) :
    d.length % 1010 = 0 := by
  cases hc : s.rxCompressed with
  | false => simp [State.decodedPayload, hc] at h
  | true =>
    have hd : pcmBytes (decodeStream s.truncPad payload) = d := by simpa [State.decodedPayload, hc] using h
    rw [← hd, pcmBytes_length, decodeStream_length]
    omega

end Sys2Proof.Machine
end

section
/-! PROOFS. 10_state.md section 4: the invariant between commands (R36) holds at reset and is kept by every step, and
what follows from it for the counters. -/

namespace Sys2Proof.Machine

/-! ### The parts of the invariant -/

/-- R36 for the two phases of the receive state. -/
theorem rxInv_iff (s : State) :
    s.rxInv ↔
      (s.rxState = .awaitingHeader ∧ s.rxExpected = none ∧ s.rxBuf.length ≤ 5) ∨
      (∃ total, s.rxState = .accumulating ∧ s.rxExpected = some total ∧ 6 ≤ total ∧ total ≤ s.params.rxCapacity ∧
        6 ≤ s.rxBuf.length ∧ s.rxBuf.length < total) := by
  unfold State.rxInv
  cases s.rxState <;> cases s.rxExpected <;> simp

theorem cacheInv_iff (s : State) :
    s.cacheInv ↔ ∀ payload pcm, s.cache = some ⟨payload, some pcm⟩ → pcm.length % 1010 = 0 := by
  unfold State.cacheInv
  rcases s.cache with _ | ⟨payload, _ | pcm⟩ <;> simp

/-- The invariant speaks of CTRL, the receive state, the cache and the parameters alone. -/
theorem State.Inv.congr {s t : State} (hs : s.Inv)
    (h : t.ctrl = s.ctrl ∧ t.rxState = s.rxState ∧ t.rxBuf = s.rxBuf ∧ t.rxExpected = s.rxExpected ∧
      t.cache = s.cache ∧ t.params = s.params) : t.Inv := by
  obtain ⟨hctrl, hstate, hbuf, hexpected, hcache, hparams⟩ := h
  obtain ⟨paramsWf, ctrlInv, rxInv, cacheInv⟩ := hs
  refine ⟨hparams ▸ paramsWf, ?_, ?_, ?_⟩
  · rwa [State.ctrlInv, hctrl]
  · rw [rxInv_iff] at rxInv ⊢; rwa [hstate, hbuf, hexpected, hparams]
  · rw [cacheInv_iff] at cacheInv ⊢; rwa [hcache]

theorem rxInv_of_rearmed {s : State} (hstate : s.rxState = .awaitingHeader) (hexpected : s.rxExpected = none)
    (hbuf : s.rxBuf = []) : s.rxInv :=
  (rxInv_iff s).mpr (.inl ⟨hstate, hexpected, by simp [hbuf]⟩)

theorem cacheInv_of_empty {s : State} (h : s.cache = none) : s.cacheInv :=
  (cacheInv_iff s).mpr fun payload pcm hc => by simp [h] at hc

/-- R170: a legal CFG_WRITE value leaves the reserved bits of CTRL 0. -/
theorem cfgWriteEffect_ctrlInv {v : Half} (s : State) (hv : v.toNat < 2 ^ 4) : (cfgWriteEffect v s).ctrlInv := by
  rw [State.ctrlInv, ← BitVec.toNat_inj, cfgWriteEffect_ctrl]
  simp [Nat.shiftRight_eq_div_pow]
  omega

/-! ### Reset -/

theorem config_params_wf : Config.params.wf := by
  have hbound := Config.capacityAboveSix.isLt
  simp only [Params.wf, Config.params, Config.rxCapacity]
  omega

theorem inv_of_reset_values {s : State} (hparams : s.params.wf) (h : s.ctrl = 0x00000005#32 ∧
    s.rxState = .awaitingHeader ∧ s.rxBuf = [] ∧ s.rxExpected = none ∧ s.cache = none) : s.Inv := by
  obtain ⟨hctrl, hstate, hbuf, hexpected, hcache⟩ := h
  refine ⟨hparams, ?_, rxInv_of_rearmed hstate hexpected hbuf, cacheInv_of_empty hcache⟩
  rw [State.ctrlInv, hctrl]; decide

/-- Settles O15: the reset values meet the invariant, and every RX_CAPACITY of Config the bound of R9. -/
theorem resetMeetsInvariant : Obligations.ResetMeetsInvariant :=
  inv_of_reset_values config_params_wf ⟨rfl, rfl, rfl, rfl, rfl⟩

/-! ### RX_FRAGMENT -/

theorem six_le_declaredTotal (q : List Byte) : 6 ≤ declaredTotal q := Nat.le_add_right 6 _

/-- What the header phase finds in both settings of RESYNC_SCAN: a header of a plausible length, or fewer bytes than a
header (R142). -/
theorem parseHeader_cases (scan : Bool) (p : Params) (q : List Byte) :
    (∃ total, (parseHeader scan p q).expected = some total ∧ 6 ≤ total ∧ total ≤ p.rxCapacity ∧
      6 ≤ (parseHeader scan p q).buf.length) ∨
    ((parseHeader scan p q).expected = none ∧ (parseHeader scan p q).buf.length ≤ 5) := by
  cases scan with
  | true =>
    obtain ⟨hexp, -, hlen, hcap⟩ | ⟨hexp, hbuf⟩ := scanHeader_cases p q
    · exact .inl ⟨_, hexp, six_le_declaredTotal _, hcap, hlen⟩
    · refine .inr ⟨hexp, ?_⟩
      obtain hnil | ⟨-, hshort⟩ := hbuf
      · exact hnil ▸ Nat.zero_le 5
      · exact Nat.le_of_lt_succ hshort
  | false =>
    obtain ⟨heq, hshort⟩ | ⟨heq, -, -⟩ | ⟨heq, hlen, hcap⟩ := trustHeader_cases p q
    · exact .inr (by simp [parseHeader, heq]; omega)
    · exact .inr (by simp [parseHeader, heq])
    · exact .inl ⟨declaredTotal q, by simp [parseHeader, heq, hlen, hcap, six_le_declaredTotal]⟩

/-- The receive state between the header phase and the completion phase: R36 but for the whole frame, which may be in
the buffer already. -/
def State.RxPending (s : State) : Prop :=
  (s.rxState = .awaitingHeader ∧ s.rxExpected = none ∧ s.rxBuf.length ≤ 5) ∨
  (∃ total, s.rxState = .accumulating ∧ s.rxExpected = some total ∧ 6 ≤ total ∧ total ≤ s.params.rxCapacity ∧
    6 ≤ s.rxBuf.length)

/-- The header phase makes a receive state with an appended fragment ready for the completion phase. -/
theorem headerPhase_rxPending {s : State} (h : s.rxInv) : (headerPhase s.appendFragment).RxPending := by
  obtain ⟨hstate, hexpected, -⟩ | ⟨total, hstate, hexpected, hsix, hcap, hlen, -⟩ := (rxInv_iff s).mp h
  · rw [headerPhase_awaiting (s := s.appendFragment) hstate]
    obtain ⟨total, hfound, hsix, hcap, hlen⟩ | ⟨hfound, hlen⟩ :=
      parseHeader_cases s.appendFragment.resyncScan s.params (s.rxBuf ++ s.op)
    · exact .inr ⟨total, by simp [hfound, hsix, hcap, hlen]⟩
    · exact .inl (by simp [hfound, hstate, hexpected, hlen])
  · rw [headerPhase_accumulating (s := s.appendFragment) hstate]
    exact .inr ⟨total, hstate, hexpected, hsix, hcap, by simp; omega⟩

/-- The completion phase re-arms after a whole frame, and otherwise the buffer is shorter than the frame. -/
theorem completionPhase_rxInv {s : State} (h : s.RxPending) : (completionPhase s).rxInv := by
  obtain ⟨total, -, -, -, heq⟩ | ⟨hshort, heq⟩ := completionPhase_cases s
  · rw [heq]; exact rxInv_of_rearmed (by simp) (by simp) (by simp)
  · rw [heq, rxInv_iff]
    obtain hawait | ⟨total, hstate, hexpected, hsix, hcap, hlen⟩ := h
    · exact .inl hawait
    · exact .inr ⟨total, hstate, hexpected, hsix, hcap, hlen, hshort total hstate hexpected⟩

theorem completionPhase_cacheInv {s : State} (h : s.cacheInv) : (completionPhase s).cacheInv := by
  obtain ⟨total, -, -, -, heq⟩ | ⟨-, heq⟩ := completionPhase_cases s
  · rw [heq, cacheInv_iff, completeFrame_cache]
    intro payload pcm hentry
    injection hentry with hentry
    injection hentry with _ hpcm
    exact decodedPayload_length_mod hpcm
  · rwa [heq]

theorem rxFragmentEffect_inv {s : State} (hs : s.Inv) : (rxFragmentEffect s).Inv where
  params := by simpa using hs.params
  ctrl := by simpa [State.ctrlInv] using hs.ctrl
  rx := completionPhase_rxInv (headerPhase_rxPending hs.rx)
  cache := completionPhase_cacheInv (by
    rw [cacheInv_iff, emit_cache, headerPhase_cache]; exact (cacheInv_iff s).mp hs.cache)

/-! ### Every command and every step -/

theorem exec_inv {i : Instr} {s t : State} (hs : s.Inv) (h : exec i s = .next t) : t.Inv := by
  cases exec_writes h with
  | answer i c k q => exact hs.congr (by simp)
  | receive => exact rxFragmentEffect_inv (hs.congr (by simp))
  | clearReceive => exact ⟨hs.params, hs.ctrl, rxInv_of_rearmed rfl rfl rfl, cacheInv_of_empty rfl⟩
  | configure v hv => exact ⟨hs.params, cfgWriteEffect_ctrlInv _ hv, hs.rx, hs.cache⟩
  | clearStatus m => exact hs.congr (by simp)

/-- Settles O16: every host action keeps each part of the invariant; in RX_FRAGMENT the header phase accepts only a
plausible total, and the completion phase takes every whole frame. -/
theorem stepKeepsInvariant : Obligations.StepKeepsInvariant := by
  intro s t hs h
  obtain ⟨-, rfl⟩ | ⟨c, rest, -, rfl⟩ | ⟨cmd, op, rest, -, rfl⟩ | ⟨cmd, op, rest, i, -, hexec⟩ := step_cases h
  · exact hs
  · exact inv_of_reset_values hs.params (by simp)
  · exact hs.congr (by simp)
  · exact exec_inv (hs.congr (by simp)) hexec

/-! ### Consequences -/

theorem rxBuf_length_lt_capacity {s : State} (hs : s.Inv) : s.rxBuf.length < s.params.rxCapacity := by
  have hcapacity : 6 ≤ s.params.rxCapacity := hs.params.1
  obtain ⟨-, -, hlen⟩ | ⟨total, -, -, -, hcap, -, hlen⟩ := (rxInv_iff s).mp hs.rx <;> omega

theorem rxExpected_le_capacity {s : State} (hs : s.Inv) : s.rxExpected.getD 0 ≤ s.params.rxCapacity := by
  obtain ⟨-, hexpected, -⟩ | ⟨total, -, hexpected, -, hcap, -, -⟩ := (rxInv_iff s).mp hs.rx
  · simp [hexpected]
  · simpa [hexpected] using hcap

/-- Settles O56: each of the three counts is at most RX_CAPACITY, which fits 32 bits (R9). -/
theorem receiveCountersFitTheirRegisters : Obligations.ReceiveCountersFitTheirRegisters := by
  intro s hs
  have hcapacity : s.params.rxCapacity < 2 ^ 32 := Nat.lt_of_le_pred (by decide) hs.params.2
  have hcount := rxBuf_length_lt_capacity hs
  have hexpected := rxExpected_le_capacity hs
  exact ⟨Nat.mod_eq_of_lt (hcount.trans hcapacity), Nat.mod_eq_of_lt (hexpected.trans_lt hcapacity),
    Nat.mod_eq_of_lt hcapacity, hcount⟩

/-! ### The scanned buffer -/

/-- In every receive state, a header phase with RESYNC_SCAN = 1 that still waits for a header stopped at the buffer's end
or at bytes that pass the marker test (R141, R142). -/
theorem headerPhase_waits_at_markerPrefix {s : State} (hscan : s.resyncScan = true)
    (hawait : (headerPhase s).rxState = .awaitingHeader) :
    (headerPhase s).rxBuf = [] ∨ markerPrefix s.params (headerPhase s).rxBuf = true := by
  cases hstate : s.rxState with
  | accumulating => simp [headerPhase_accumulating hstate, hstate] at hawait
  | awaitingHeader =>
    rw [headerPhase_awaiting hstate, hscan] at hawait ⊢
    rw [raiseIf_rxBuf, acceptHeader_rxBuf]
    obtain ⟨-, hmarker, -, -⟩ | ⟨-, hempty | ⟨hmarker, -⟩⟩ := scanHeader_cases s.params s.rxBuf
    · exact .inr hmarker
    · exact .inl hempty
    · exact .inr hmarker

/-- Settles O17: a frame that completes empties the buffer; otherwise it is the one the header phase left. -/
theorem scannedBufferIsMarkerPrefix : Obligations.ScannedBufferIsMarkerPrefix := by
  intro s t hop hscan h hawait
  have heffect : exec .rxFragment s = .next (rxFragmentEffect s.beginAnswer) :=
    exec_of_legal (i := .rxFragment) ⟨rfl, hop, .inl rfl⟩
  obtain rfl := Host.Outcome.next.inj (heffect.symm.trans h)
  obtain ⟨total, -, -, -, heq⟩ | ⟨-, heq⟩ :=
    completionPhase_cases ((headerPhase s.beginAnswer.appendFragment).emit .progress)
  · exact .inl (by simp [rxFragmentEffect, heq])
  · rw [rxFragmentEffect, heq] at hawait ⊢
    simpa using headerPhase_waits_at_markerPrefix (s := s.beginAnswer.appendFragment) hscan hawait

end Sys2Proof.Machine
end

section
/-! PROOFS. 20_memory.md: PCM samples in bytes (R53), and the reads that only show the state (R58). -/

namespace Sys2Proof.Machine

/-! ### PCM samples -/

/-- Dropping one sample's two bytes moves the offset of a later sample down by 2. -/
theorem le16_cons_cons (lo hi : Byte) (q : List Byte) (i : Nat) : le16 (lo :: hi :: q) (i + 2) = le16 q i := rfl

theorem samplesOf_getElem? (q : List Byte) (i : Nat) (h : 2 * i + 1 < q.length) :
    (samplesOf q)[i]? = some (sext16 (le16 q (2 * i))) := by
  induction q using samplesOf.induct generalizing i with
  | case1 lo hi q ih =>
    cases i with
    | zero => rfl
    | succ i =>
      rw [samplesOf, List.getElem?_cons_succ, Nat.mul_succ, le16_cons_cons]
      exact ih i (by simp at h; omega)
  | case2 q hshort =>
    match q, hshort with
    | [], _ => simp at h
    | [_], _ => simp at h
    | lo :: hi :: q, hshort => exact absurd rfl (hshort lo hi q)

/-- A word's two bytes, low byte first, give its unsigned value again. -/
theorem low_add_high_toNat (w : Half) : (w.extractLsb' 0 8).toNat + 256 * (w.extractLsb' 8 8).toNat = w.toNat := by
  have hw := w.isLt
  simp only [BitVec.extractLsb'_toNat, Nat.shiftRight_eq_div_pow]
  omega

theorem sext16_ofInt {v : Int} (h : InSampleRange v) : sext16 (BitVec.ofInt 16 v).toNat = v := by
  obtain ⟨hlo, hhi⟩ := h
  rw [BitVec.toNat_ofInt, sext16]
  split <;> omega

/-- One sample of the range, written as PCM bytes, reads back as itself. -/
theorem samplesOf_u16le {v : Int} (h : InSampleRange v) : samplesOf (u16le v) = [v] := by
  simp only [u16le, samplesOf, low_add_high_toNat, sext16_ofInt h]

theorem samplesOf_pcmBytes (l : List Int) (h : ∀ v ∈ l, InSampleRange v) : samplesOf (pcmBytes l) = l := by
  induction l with
  | nil => rfl
  | cons v l ih =>
    obtain ⟨hv, hl⟩ := List.forall_mem_cons.mp h
    rw [pcmBytes_cons, samplesOf_append _ _ (by simp), samplesOf_u16le hv, ih hl, List.singleton_append]

/-- Settles O25: reading goes two bytes at a time, and a 16-bit word holds every value of the sample range (R53). -/
theorem pcmSamplesAreLittleEndian : Obligations.PcmSamplesAreLittleEndian :=
  ⟨samplesOf_getElem?, samplesOf_length, samplesOf_pcmBytes⟩

/-! ### The reads -/

/-- A new answer replaces the old one. -/
theorem beginAnswer_output_beginAnswer (q : List Byte) (s : State) :
    (s.beginAnswer.output q).beginAnswer = s.beginAnswer := rfl

/-- A sticky bit that a first refusal set is set already for the second. -/
theorem refused_refused (s : State) : s.refused.refused = s.refused := by
  ext1 <;> simp [BitVec.or_assoc]

/-- Legality depends on the state through the operand alone. -/
theorem legal_congr (i : Instr) {s t : State} (h : t.op = s.op) : Legal i t ↔ Legal i s := by
  rw [Legal, Legal, h]

/-- A legal command whose effect only shows bytes answers the same when it runs again. -/
theorem exec_again_of_output {i : Instr} {s : State} {q : List Byte} (hlegal : Legal i s)
    (heffect : effectOf i s.beginAnswer = s.beginAnswer.output q) :
    exec i (effectOf i s.beginAnswer) = .next (effectOf i s.beginAnswer) := by
  have hagain : Legal i (s.beginAnswer.output q) := (legal_congr i rfl).mpr hlegal
  rw [heffect, exec_of_legal hagain, beginAnswer_output_beginAnswer, heffect]

/-- A refused transaction is refused again, with the same answer. -/
theorem exec_again_of_illegal {i : Instr} {s : State} (h : ¬ Legal i s) : exec i s.refused = .next s.refused := by
  have hagain : ¬ Legal i s.refused := (legal_congr i rfl).not.mpr h
  rw [exec_of_illegal hagain, refused_refused]

/-- Settles O58: a legal read only shows bytes that depend on what it leaves unchanged; a refused one is refused again
and finds ILLEGAL_CMD set (R58, R74). -/
theorem readsAreIdempotent : Obligations.ReadsAreIdempotent := by
  intro i s t hread h
  obtain ⟨hlegal, rfl⟩ | ⟨hillegal, rfl⟩ := exec_cases h
  · obtain ⟨index, rfl⟩ | ⟨selector, rfl⟩ := hread
    · exact exec_again_of_output hlegal rfl
    · exact exec_again_of_output hlegal rfl
  · exact exec_again_of_illegal hillegal

end Sys2Proof.Machine
end

section
/-! PROOFS. 30_encoding.md section 1: the command word and its fields, decoder and encoder, the step on a transaction,
and what a legal command never reports. -/

namespace Sys2Proof.Machine

/-! ### The fields of a command word (R72) -/

theorem opcField_toNat (w : Word) : (opcField w).toNat = w.toNat % 2 ^ 8 := by
  simp [opcField]

theorem arg8Field_toNat (w : Word) : (arg8Field w).toNat = w.toNat / 2 ^ 8 % 2 ^ 8 := by
  simp [arg8Field, Nat.shiftRight_eq_div_pow]

theorem arg16Field_toNat (w : Word) : (arg16Field w).toNat = w.toNat / 2 ^ 16 := by
  have hw := w.isLt
  simp only [arg16Field, BitVec.extractLsb'_toNat, Nat.shiftRight_eq_div_pow]
  omega

section Fields
variable (opc arg8 : Byte) (arg16 : Half)

/-- The fields do not overlap. -/
theorem commandWord_toNat :
    (commandWord opc arg8 arg16).toNat = 2 ^ 8 * (2 ^ 8 * arg16.toNat + arg8.toNat) + opc.toNat := by
  rw [Nat.two_pow_add_eq_or_of_lt opc.isLt, Nat.two_pow_add_eq_or_of_lt arg8.isLt, Nat.mul_comm, Nat.mul_comm (2 ^ 8)]
  simp only [commandWord, BitVec.toNat_append, Nat.shiftLeft_eq]

@[simp] theorem opcField_commandWord : opcField (commandWord opc arg8 arg16) = opc := by
  have hopc := opc.isLt
  apply BitVec.eq_of_toNat_eq
  rw [opcField_toNat, commandWord_toNat]
  omega

@[simp] theorem arg8Field_commandWord : arg8Field (commandWord opc arg8 arg16) = arg8 := by
  have hopc := opc.isLt
  have harg8 := arg8.isLt
  apply BitVec.eq_of_toNat_eq
  rw [arg8Field_toNat, commandWord_toNat]
  omega

@[simp] theorem arg16Field_commandWord : arg16Field (commandWord opc arg8 arg16) = arg16 := by
  have hopc := opc.isLt
  have harg8 := arg8.isLt
  apply BitVec.eq_of_toNat_eq
  rw [arg16Field_toNat, commandWord_toNat]
  omega

end Fields

/-- The three fields are the whole word. -/
theorem commandWord_fields (w : Word) : commandWord (opcField w) (arg8Field w) (arg16Field w) = w := by
  apply BitVec.eq_of_toNat_eq
  rw [commandWord_toNat, opcField_toNat, arg8Field_toNat, arg16Field_toNat]
  omega

theorem commandWord_eq_iff {opc arg8 : Byte} {arg16 : Half} {w : Word} :
    commandWord opc arg8 arg16 = w ↔ opcField w = opc ∧ arg8Field w = arg8 ∧ arg16Field w = arg16 := by
  constructor
  · rintro rfl; simp
  · rintro ⟨rfl, rfl, rfl⟩; exact commandWord_fields w

theorem commandWord_inj {o o' a a' : Byte} {v v' : Half} :
    commandWord o a v = commandWord o' a' v' ↔ o = o' ∧ a = a' ∧ v = v' := by
  rw [commandWord_eq_iff, opcField_commandWord, arg8Field_commandWord, arg16Field_commandWord, eq_comm (a := o'),
    eq_comm (a := a'), eq_comm (a := v')]

/-- A mask works on each field for itself. -/
theorem commandWord_and (o o' a a' : Byte) (v v' : Half) :
    commandWord o a v &&& commandWord o' a' v' = commandWord (o &&& o') (a &&& a') (v &&& v') :=
  BitVec.and_append.trans (congrArg (· ++ (o &&& o')) BitVec.and_append)

/-! ### Decoder and encoder (R73) -/

theorem rowWithoutArgs_eq_ok {w : Word} {i j : Instr} :
    rowWithoutArgs w i = .ok j ↔ arg8Field w = 0#8 ∧ arg16Field w = 0#16 ∧ i = j := by
  unfold rowWithoutArgs
  split
  · simp_all
  · split <;> simp_all

theorem rowWithArg8_eq_ok {w : Word} {f : Byte → Instr} {j : Instr} :
    rowWithArg8 w f = .ok j ↔ arg16Field w = 0#16 ∧ f (arg8Field w) = j := by
  unfold rowWithArg8
  split <;> simp_all

theorem rowWithArg16_eq_ok {w : Word} {f : Half → Instr} {j : Instr} :
    rowWithArg16 w f = .ok j ↔ arg8Field w = 0#8 ∧ f (arg16Field w) = j := by
  unfold rowWithArg16
  split <;> simp_all

theorem decode_encode (i : Instr) : decode (encode i) = .ok i := by
  cases i <;> simp [decode, encode, rowWithoutArgs, rowWithArg8, rowWithArg16]

/-- Settles O1: each field of `encode i` reads back, so the decoder takes the row of the command. -/
theorem decodeReadsBackEveryCommand : Obligations.DecodeReadsBackEveryCommand := decode_encode

section Rows
variable {w : Word} {j : Instr} {opc : Byte} (hopc : opcField w = opc)
include hopc

theorem encode_of_rowWithoutArgs {i : Instr} (henc : encode i = commandWord opc 0#8 0#16)
    (h : rowWithoutArgs w i = .ok j) : encode j = w := by
  obtain ⟨harg8, harg16, rfl⟩ := rowWithoutArgs_eq_ok.mp h
  rw [henc, commandWord_eq_iff]
  exact ⟨hopc, harg8, harg16⟩

theorem encode_of_rowWithArg8 {f : Byte → Instr} (henc : ∀ a, encode (f a) = commandWord opc a 0#16)
    (h : rowWithArg8 w f = .ok j) : encode j = w := by
  obtain ⟨harg16, rfl⟩ := rowWithArg8_eq_ok.mp h
  rw [henc, commandWord_eq_iff]
  exact ⟨hopc, rfl, harg16⟩

theorem encode_of_rowWithArg16 {f : Half → Instr} (henc : ∀ v, encode (f v) = commandWord opc 0#8 v)
    (h : rowWithArg16 w f = .ok j) : encode j = w := by
  obtain ⟨harg8, rfl⟩ := rowWithArg16_eq_ok.mp h
  rw [henc, commandWord_eq_iff]
  exact ⟨hopc, harg8, rfl⟩

end Rows

theorem encode_of_decode {w : Word} {i : Instr} (h : decode w = .ok i) : encode i = w := by
  unfold decode at h
  split_ifs at h with h01 h02 h03 h04 h05 h06 h10 h11 h12
  · exact encode_of_rowWithoutArgs h01 rfl h
  · exact encode_of_rowWithoutArgs h02 rfl h
  · exact encode_of_rowWithoutArgs h03 rfl h
  · exact encode_of_rowWithoutArgs h04 rfl h
  · exact encode_of_rowWithoutArgs h05 rfl h
  · exact encode_of_rowWithArg8 h06 (fun _ => rfl) h
  · exact encode_of_rowWithArg16 h10 (fun _ => rfl) h
  · exact encode_of_rowWithArg8 h11 (fun _ => rfl) h
  · exact encode_of_rowWithArg8 h12 (fun _ => rfl) h

/-- Settles O2: each row fixes every bit of the word that is not in the argument it returns. -/
theorem everyCommandHasOneWord : Obligations.EveryCommandHasOneWord := fun _ _ => encode_of_decode

/-- Decoding and encoding are inverse to each other. -/
theorem decode_eq_ok_iff {w : Word} {i : Instr} : decode w = .ok i ↔ encode i = w := by
  constructor
  · exact encode_of_decode
  · rintro rfl; exact decode_encode i

/-! ### The match and mask columns (R73) -/

theorem decode_eq_ok_iff_allBits {w : Word} {i : Instr} : decode w = .ok i ↔ w &&& 0xFFFFFFFF#32 = encode i := by
  have hmask : w &&& 0xFFFFFFFF#32 = w := BitVec.and_allOnes
  rw [hmask, decode_eq_ok_iff, eq_comm]

/-- The mask of R73's rows with an ARG8 argument leaves out that field. -/
theorem and_mask_arg8 (w : Word) : w &&& 0xFFFF00FF#32 = commandWord (opcField w) 0#8 (arg16Field w) := by
  have hmask : 0xFFFF00FF#32 = commandWord (BitVec.allOnes 8) 0#8 (BitVec.allOnes 16) := by decide
  conv_lhs => rw [hmask, ← commandWord_fields w, commandWord_and]
  simp only [BitVec.and_allOnes, BitVec.and_zero]

/-- The mask of R73's row with an ARG16 argument leaves out that field. -/
theorem and_mask_arg16 (w : Word) : w &&& 0x0000FFFF#32 = commandWord (opcField w) (arg8Field w) 0#16 := by
  have hmask : 0x0000FFFF#32 = commandWord (BitVec.allOnes 8) (BitVec.allOnes 8) 0#16 := by decide
  conv_lhs => rw [hmask, ← commandWord_fields w, commandWord_and]
  simp only [BitVec.and_allOnes, BitVec.and_zero]

theorem decode_eq_ok_iff_arg8 {w : Word} {opc a : Byte} {f : Byte → Instr}
    (henc : ∀ a, encode (f a) = commandWord opc a 0#16) :
    decode w = .ok (f a) ↔
      w &&& 0xFFFF00FF#32 = commandWord opc 0#8 0#16 ∧ a.toNat = w.toNat / 2 ^ 8 % 2 ^ 8 := by
  rw [decode_eq_ok_iff, henc, commandWord_eq_iff, and_mask_arg8, commandWord_inj, ← arg8Field_toNat, BitVec.toNat_inj,
    eq_comm (a := a)]
  tauto

theorem decode_eq_ok_iff_arg16 {w : Word} {opc : Byte} {v : Half} {f : Half → Instr}
    (henc : ∀ v, encode (f v) = commandWord opc 0#8 v) :
    decode w = .ok (f v) ↔ w &&& 0x0000FFFF#32 = commandWord opc 0#8 0#16 ∧ v.toNat = w.toNat / 2 ^ 16 := by
  rw [decode_eq_ok_iff, henc, commandWord_eq_iff, and_mask_arg16, commandWord_inj, ← arg16Field_toNat,
    BitVec.toNat_inj, eq_comm (a := v)]
  tauto

/-- Settles O3: a row's "match" is the row's word with argument 0, and its mask leaves out the argument's field. -/
theorem wordSelectsRowByMatchAndMask : Obligations.WordSelectsRowByMatchAndMask := by
  intro w
  refine ⟨decode_eq_ok_iff_allBits, decode_eq_ok_iff_allBits, decode_eq_ok_iff_allBits, decode_eq_ok_iff_allBits,
    decode_eq_ok_iff_allBits, fun selector => ?_, fun value => ?_, fun index => ?_, fun mask => ?_⟩
  · exact decode_eq_ok_iff_arg8 (opc := 0x06#8) fun _ => rfl
  · exact decode_eq_ok_iff_arg16 (opc := 0x10#8) fun _ => rfl
  · exact decode_eq_ok_iff_arg8 (opc := 0x11#8) fun _ => rfl
  · exact decode_eq_ok_iff_arg8 (opc := 0x12#8) fun _ => rfl

/-- Settles O4: the decoder computes on written-out words. -/
theorem writtenOutWordsDecode : Obligations.WrittenOutWordsDecode := by
  unfold Obligations.WrittenOutWordsDecode
  decide

/-- Settles O5: a pseudo-command's action is its expansion's, and RX_FRAME's bytes are the built frame's header and
payload (R76, R131). -/
theorem pseudoCommandsExpand : Obligations.PseudoCommandsExpand := fun _ _ => ⟨rfl, rfl, rfl⟩

/-! ### The step on a transaction (R60, R70, R74) -/

section Transaction
variable {s : State} {w : Word} {op : List Byte} {rest : List HostAction} (hinbox : s.inbox = .command w op :: rest)
include hinbox

theorem step_of_decode_ok {i : Instr} (h : decode w = .ok i) :
    step s = exec i { s with inbox := rest, op := op } := by
  simp only [step, fetch_command hinbox, h]

/-- R74 (a). -/
theorem step_of_no_row (h : ∀ i, decode w ≠ .ok i) :
    step s = .next (State.refused { s with inbox := rest, op := op }) := by
  cases hdec : decode w with
  | error e => simp only [step, fetch_command hinbox, hdec]
  | ok i => exact absurd hdec (h i)

/-- R74 (b) to (d). -/
theorem step_of_illegal {i : Instr} (hdec : decode w = .ok i)
    (h : ¬ Legal i { s with inbox := rest, op := op }) :
    step s = .next (State.refused { s with inbox := rest, op := op }) := by
  rw [step_of_decode_ok hinbox hdec, exec_of_illegal h]

end Transaction

/-- Settles O6: the word of the fetched transaction selects the `.ok` arm of `step`. -/
theorem stepRunsDecodedCommand : Obligations.StepRunsDecodedCommand := fun _ _ _ _ _ hinbox hdec =>
  step_of_decode_ok hinbox hdec

/-- Settles O7: each of the grounds (b) to (d) contradicts one part of `Legal`, and a refusal is R74's effect. -/
theorem illegalTransactionIsRefused : Obligations.IllegalTransactionIsRefused := by
  rintro s w op rest hinbox (hnone | ⟨i, hdec, hground⟩)
  · exact step_of_no_row hinbox hnone
  · refine step_of_illegal hinbox hdec fun ⟨hargs, hfits, hop⟩ => ?_
    obtain ⟨hunused, hgiven⟩ | hlong | hbad := hground
    · exact hop.elim (fun hused => by simp [hunused] at hused) hgiven
    · exact absurd hlong (Nat.not_le.mpr hfits)
    · simp [hbad] at hargs

/-- R73's assigned opcodes. -/
theorem encode_opcode (i : Instr) :
    (1 ≤ (encode i).toNat % 2 ^ 8 ∧ (encode i).toNat % 2 ^ 8 ≤ 6) ∨
      (0x10 ≤ (encode i).toNat % 2 ^ 8 ∧ (encode i).toNat % 2 ^ 8 ≤ 0x12) := by
  rw [← opcField_toNat]
  cases i <;> simp [encode]

/-- Settles O8: a reserved opcode is the opcode of no command, so the word matches no row (R75, R74 (a)). -/
theorem reservedOpcodeIsRefused : Obligations.ReservedOpcodeIsRefused := by
  intro s w op rest hinbox hreserved
  refine step_of_no_row hinbox fun i hdec => ?_
  have hassigned := encode_opcode i
  rw [encode_of_decode hdec] at hassigned
  omega

/-! ### What a legal command never reports (R74, R207) -/

/-- The state `t` shows no IllegalCommand that `s` does not show. -/
structure NoNewIllegal (s t : State) : Prop where
  event : Event.error .illegalCommand ∈ t.ev → Event.error .illegalCommand ∈ s.ev
  bit : t.sticky.getLsbD 2 = true → s.sticky.getLsbD 2 = true

namespace NoNewIllegal
variable {s t u : State}

theorem refl (s : State) : NoNewIllegal s s := ⟨id, id⟩

/-- The relation speaks of EV and the sticky bits alone. -/
theorem congr (h : NoNewIllegal s t) (hev : u.ev = t.ev) (hsticky : u.sticky = t.sticky) : NoNewIllegal s u :=
  ⟨fun hu => h.event (hev ▸ hu), fun hu => h.bit (hsticky ▸ hu)⟩

/-- A report of another kind sets another bit. -/
theorem raiseIf (h : NoNewIllegal s t) (c : Bool) {k : ErrorKind} (hk : k ≠ .illegalCommand) :
    NoNewIllegal s (t.raiseIf c k) := by
  have hbit : k.stickyBit.getLsbD 2 = false := by
    cases k with
    | illegalCommand => exact absurd rfl hk
    | _ => rfl
  cases c with
  | false => exact h
  | true =>
    refine ⟨fun hev => h.event ?_, fun hst => h.bit ?_⟩
    · simpa [State.raiseIf, hk.symm] using hev
    · simpa only [raiseIf_sticky, if_true, BitVec.getLsbD_or, hbit, Bool.or_false] using hst

theorem headerPhase (h : NoNewIllegal s t) : NoNewIllegal s (headerPhase t) := by
  cases hst : t.rxState with
  | accumulating => rwa [headerPhase_accumulating hst]
  | awaitingHeader =>
    rw [headerPhase_awaiting hst]
    exact (h.congr (acceptHeader_ev _ _) (acceptHeader_sticky _ _)).raiseIf _ (by decide)

theorem emit (h : NoNewIllegal s t) {e : Event} (he : e ≠ .error .illegalCommand) : NoNewIllegal s (t.emit e) :=
  ⟨fun hev => h.event (by simpa [he.symm] using hev), h.bit⟩

theorem completeFrame (h : NoNewIllegal s t) (total : Nat) : NoNewIllegal s (completeFrame total t) :=
  (((h.raiseIf _ (by decide)).raiseIf _ (by decide)).emit (by simp)).congr rfl rfl

theorem completionPhase (h : NoNewIllegal s t) : NoNewIllegal s (completionPhase t) := by
  obtain ⟨total, -, -, -, heq⟩ | ⟨-, heq⟩ := completionPhase_cases t
  · rw [heq]; exact h.completeFrame total
  · rwa [heq]

end NoNewIllegal

theorem effectOf_noNewIllegal (i : Instr) (s : State) : NoNewIllegal s (effectOf i s) := by
  have hs := NoNewIllegal.refl s
  cases i with
  | decode => exact (hs.raiseIf (truncated s.op) (k := .truncatedBlock) (by decide)).congr rfl rfl
  | encode => exact (hs.raiseIf (oddLength s.op) (k := .oddByte) (by decide)).congr rfl rfl
  | frameBuild =>
    rw [effectOf, frameBuildEffect_eq]
    exact (hs.raiseIf _ (by decide)).congr rfl rfl
  | rxFragment => exact ((hs.congr (u := s.appendFragment) rfl rfl).headerPhase.emit (by simp)).completionPhase
  | rxReset => exact hs.congr rfl rfl
  | cacheRead selector => exact hs.congr rfl rfl
  | cfgWrite value => exact hs.congr rfl rfl
  | regRead index => exact hs.congr rfl rfl
  | statusClear mask =>
    refine ⟨id, fun hbit => ?_⟩
    rw [effectOf, statusClearEffect_sticky, BitVec.getLsbD_and, Bool.and_eq_true] at hbit
    exact hbit.1

/-- Settles O9: a legal command runs its effect from an empty EV, and no effect raises IllegalCommand. -/
theorem legalCommandIsNotRefused : Obligations.LegalCommandIsNotRefused := by
  intro i s hlegal
  have heffect := effectOf_noNewIllegal i s.beginAnswer
  exact ⟨_, exec_of_legal hlegal, fun hev => List.not_mem_nil (heffect.event hev), heffect.bit⟩

end Sys2Proof.Machine
end

section
/-! PROOFS. 30_encoding.md section 2: the length field of a built frame (R78, R130, R131). -/

namespace Sys2Proof.Machine

theorem le32_u32le (v : Word) : le32 (u32le v) 0 = v.toNat := by
  have hv := v.isLt
  simp only [le32, u32le, byteAt, List.getD_cons_zero, List.getD_cons_succ, BitVec.extractLsb'_toNat,
    Nat.shiftRight_eq_div_pow]
  omega

theorem le32_buildFrame (p : Params) {payload : List Byte} (h : payload.length < 2 ^ 32) :
    le32 (buildFrame p payload) 2 = payload.length :=
  (le32_u32le (BitVec.ofNat 32 payload.length)).trans (Nat.mod_eq_of_lt h)

@[simp] theorem buildFrame_length (p : Params) (payload : List Byte) :
    (buildFrame p payload).length = 6 + payload.length := by
  rw [buildFrame, List.length_append]
  rfl

/-- Four header bytes and the 504 code positions, two to a byte. -/
theorem encodeBlock_length {samples : List Int} (h : samples.length ≤ 504) : (encodeBlock samples).length = 256 := by
  have hpositions : samples.length - 1 + (504 - (samples.length - 1)) = 504 := by omega
  simp [encodeBlock, packCodes_length, hpositions]

theorem encodeBlocks_length (samples : List Int) :
    (encodeBlocks samples).length = 256 * ((samples.length + 503) / 504) := by
  have hblock (b : Nat) : (encodeBlock (slice samples (504 * b) 504)).length = 256 :=
    encodeBlock_length (by simp)
  simp only [encodeBlocks, List.length_flatMap, hblock, List.map_const', List.sum_replicate, List.length_range,
    smul_eq_mul]
  exact Nat.mul_comm _ _

theorem encodeStream_length (q : List Byte) : (encodeStream q).length = 256 * ((q.length / 2 + 503) / 504) := by
  rw [encodeStream, encodeBlocks_length, samplesOf_length]

/-- The payload of the frame that FRAME_BUILD answers (R130). -/
def builtPayload (s : State) : List Byte := if s.txCompressed then encodeStream s.op else s.op

theorem frameBuildEffect_out {s : State} (h : s.out = []) :
    (frameBuildEffect s).out = buildFrame s.params (builtPayload s) := by
  simp [frameBuildEffect_eq, builtPayload, h]

theorem builtPayload_length (s : State) :
    (builtPayload s).length = if s.txCompressed then 256 * ((s.op.length / 2 + 503) / 504) else s.op.length := by
  rw [builtPayload, ← encodeStream_length, apply_ite List.length]

/-- An encoded operand takes 256 bytes for every 1008 begun, so the length field holds either payload's length. -/
theorem builtPayload_length_lt {s : State} (h : s.op.length < 2 ^ 32) : (builtPayload s).length < 2 ^ 32 := by
  rw [builtPayload_length]
  split <;> omega

/-- Settles O41: OUT is one built frame, and its payload, encoded or not, is shorter than 2^32 bytes. -/
theorem frameLengthFieldIsAuthoritative : Obligations.FrameLengthFieldIsAuthoritative := by
  intro s hop
  have hexec : exec .frameBuild s = .next (frameBuildEffect s.beginAnswer) :=
    exec_of_legal (i := .frameBuild) ⟨rfl, hop, .inl rfl⟩
  have hlength := builtPayload_length s.beginAnswer
  have hfield := le32_buildFrame s.params (builtPayload_length_lt (s := s.beginAnswer) hop)
  refine ⟨_, hexec, ?_, fun htx => ?_⟩
  · rw [frameBuildEffect_out rfl, beginAnswer_params, hfield, buildFrame_length]
  · have htx' : s.beginAnswer.txCompressed = true := htx
    rw [frameBuildEffect_out rfl, beginAnswer_params, hfield, hlength, if_pos htx', beginAnswer_op]

end Sys2Proof.Machine
end

section
/-! PROOFS. 40_codec.md section 2: the decoder step and the quantizer (R101, R102). -/

namespace Sys2Proof.Machine

theorem clamp_eq_max_min {v lo hi : Int} (h : lo ≤ hi) : clamp v lo hi = max lo (min hi v) := by
  unfold clamp; split <;> [skip; split] <;> omega

/-- Bit `i` of a code, as R101 and R102 speak of it. -/
theorem getLsbD_iff_toNat (n : Nibble) (i : Nat) : n.getLsbD i = true ↔ n.toNat / 2 ^ i % 2 = 1 := by
  rw [BitVec.getLsbD, Nat.testBit_eq_decide_div_mod_eq, decide_eq_true_iff]

/-- The sign bit is the highest of the four. -/
theorem getLsbD_three_iff (n : Nibble) : n.getLsbD 3 = true ↔ 8 ≤ n.toNat := by
  have hn := n.isLt
  rw [getLsbD_iff_toNat]
  omega

theorem stepTable_getElem? {idx : Nat} (h : idx ≤ 88) : stepTable[idx]? = some (stepAt idx) := by
  have hlt : idx < stepTable.length := Nat.lt_succ_of_le h
  rw [stepAt, List.getD_eq_getElem _ _ hlt, List.getElem?_eq_getElem hlt]

theorem indexTable_getElem? (n : Nibble) : indexTable[n.toNat]? = some (indexDelta n) := by
  have hlt : n.toNat < indexTable.length := n.isLt
  rw [indexDelta, List.getD_eq_getElem _ _ hlt, List.getElem?_eq_getElem hlt]

/-- R101's sum, with the shifts as divisions. -/
theorem codeMagnitude_eq (step : Nat) (n : Nibble) :
    codeMagnitude step n = step / 8 + (if n.toNat % 2 = 1 then step / 4 else 0)
      + (if n.toNat / 2 % 2 = 1 then step / 2 else 0) + (if n.toNat / 4 % 2 = 1 then step else 0) := by
  simp only [codeMagnitude, getLsbD_iff_toNat, Nat.shiftRight_eq_div_pow, Nat.reducePow, Nat.div_one]

theorem decodeNibble_fst (pred : Int) (idx : Nat) (n : Nibble) :
    (decodeNibble pred idx n).1 = max (-32768) (min 32767
      (if 8 ≤ n.toNat then pred - codeMagnitude (stepAt idx) n else pred + codeMagnitude (stepAt idx) n)) := by
  simp only [decodeNibble, getLsbD_three_iff]
  exact clamp_eq_max_min (by decide)

theorem decodeNibble_snd (pred : Int) (idx : Nat) (n : Nibble) :
    ((decodeNibble pred idx n).2 : Int) = max 0 (min 88 (idx + indexDelta n)) := by
  have hnonneg : 0 ≤ clamp (idx + indexDelta n) 0 stepIndexMax := clamp_ge (by decide)
  exact (Int.toNat_of_nonneg hnonneg).trans (clamp_eq_max_min (by decide))

/-- Settles O26: the two tables' entries, R101's sum of the code's bits, and the two clamps. -/
theorem decodeNibbleStep : Obligations.DecodeNibbleStep := by
  intro pred idx n _ hidx
  refine ⟨stepAt idx, indexDelta n, codeMagnitude (stepAt idx) n, stepTable_getElem? hidx, indexTable_getElem? n,
    ?_, decodeNibble_fst pred idx n, decodeNibble_snd pred idx n⟩
  rw [codeMagnitude_eq]
  push_cast
  rfl

/-- The code with the given four bits, put together as R102 does. -/
def codeOfBits (b3 b2 b1 b0 : Bool) : Nibble :=
  (if b3 then 8#4 else 0#4) |||
    ((if b2 then 4#4 else 0#4) ||| (if b1 then 2#4 else 0#4) ||| (if b0 then 1#4 else 0#4))

theorem toNat_of_eq_codeOfBits {c : Nibble} {b3 b2 b1 b0 : Bool} (h : c = codeOfBits b3 b2 b1 b0) :
    c.toNat / 8 = (if b3 then 1 else 0) ∧ c.toNat / 4 % 2 = (if b2 then 1 else 0) ∧
      c.toNat / 2 % 2 = (if b1 then 1 else 0) ∧ c.toNat % 2 = (if b0 then 1 else 0) := by
  subst h; revert b3 b2 b1 b0; decide

/-- What is left of the difference `d` after the comparison with the threshold `t` (R102). -/
def restAfter (t d : Nat) : Nat := if t ≤ d then d - t else d

/-- The code's bits are the outcomes of R102's four comparisons. -/
theorem sampleCode_eq (pred : Int) (idx : Nat) (v : Int) :
    sampleCode pred idx v =
      let step := stepAt idx
      let d0 := (v - pred).natAbs
      let d1 := restAfter step d0
      let d2 := restAfter (step / 2) d1
      codeOfBits (v < pred) (step ≤ d0) (step / 2 ≤ d1) (step / 4 ≤ d2) := by
  have hsign : v - pred < 0 ↔ v < pred := by omega
  have hrest (t d : Nat) : (if t ≤ d then d - t else d) = restAfter t d := rfl
  simp only [sampleCode, quantize, codeOfBits, decide_eq_true_eq, Nat.shiftRight_eq_div_pow, Nat.reducePow, hsign,
    hrest]

/-- Settles O28: the update is by definition the decoder's, and each bit of the code is one comparison's outcome. -/
theorem encodeSampleQuantizes : Obligations.EncodeSampleQuantizes := by
  intro pred idx v _ hidx _
  refine ⟨stepAt idx, _, restAfter _ _, restAfter _ _, sampleCode pred idx v, stepTable_getElem? hidx, rfl, rfl, rfl,
    rfl, ?_⟩
  simpa only [decide_eq_true_eq] using toNat_of_eq_codeOfBits (sampleCode_eq pred idx v)

end Sys2Proof.Machine
end

section
/-! PROOFS. 40_codec.md section 3: blocks (R104, R105, R108) and the error of the first step (R112). -/

namespace Sys2Proof.Machine

/-! ### Decoding a block -/

/-- The running predictor and index after a sequence of codes, from those of `r` (R104). -/
def decodeRun (r : Int × Nat) (codes : List Nibble) : Int × Nat :=
  codes.foldl (fun r n => decodeNibble r.1 r.2 n) r

theorem decodeRun_concat (r : Int × Nat) (codes : List Nibble) (n : Nibble) :
    decodeRun r (codes ++ [n]) = decodeNibble (decodeRun r codes).1 (decodeRun r codes).2 n := by
  simp [decodeRun]

/-- Sample `k`, the starting predictor being sample 0, is the running predictor after `k` codes. -/
theorem decodeCodes_getElem? (pred : Int) (idx : Nat) (codes : List Nibble) (k : Nat) (h : k ≤ codes.length) :
    (pred :: decodeCodes pred idx codes)[k]? = some (decodeRun (pred, idx) (codes.take k)).1 := by
  induction codes generalizing pred idx k with
  | nil => obtain rfl : k = 0 := Nat.le_zero.mp h; rfl
  | cons n codes ih =>
    cases k with
    | zero => rfl
    | succ k => exact ih _ _ k (Nat.le_of_succ_le_succ h)

/-- R55: code position `k` stands in byte `k / 2`, the low nibble first. -/
theorem codesOf_getElem? (q : List Byte) (k : Nat) (h : k < 2 * q.length) :
    (codesOf q)[k]? = some (if k % 2 = 0 then (byteAt q (k / 2)).extractLsb' 0 4
      else (byteAt q (k / 2)).extractLsb' 4 4) := by
  induction q generalizing k with
  | nil => simp at h
  | cons b q ih =>
    match k with
    | 0 => rfl
    | 1 => rfl
    | k + 2 =>
      have hbyte : byteAt (b :: q) ((k + 2) / 2) = byteAt q (k / 2) := by simp [byteAt]
      rw [codesOf_cons, List.getElem?_cons_succ, List.getElem?_cons_succ, ih k (by simp at h; omega), hbyte,
        Nat.add_mod_right]

theorem byteAt_drop (q : List Byte) (i j : Nat) : byteAt (q.drop i) j = byteAt q (i + j) := by
  simp [byteAt]

/-- The statement's running state is the run of the block's codes. -/
theorem runningState_eq_decodeRun {block : List Byte} (hblock : block.length = 256) {k : Nat} (hk : k ≤ 504) :
    runningState block k = decodeRun (blockPredictor block, blockIndex block) ((blockCodes block).take k) := by
  induction k with
  | zero => rfl
  | succ k ih =>
    have hcode := codesOf_getElem? (block.drop 4) k (by simp [hblock]; omega)
    rw [byteAt_drop] at hcode
    rw [List.take_add_one, blockCodes, hcode, Option.toList_some, decodeRun_concat, ← blockCodes, ← ih (by omega)]
    rfl

/-- Settles O29: the header's predictor is sample 0, and sample `k` is the running predictor after `k` codes. -/
theorem decodeBlockGivesEverySample : Obligations.DecodeBlockGivesEverySample := by
  intro block hblock
  refine ⟨decodeBlock_length hblock, rfl, rfl, fun k hk => ?_⟩
  rw [runningState_eq_decodeRun hblock hk]
  exact decodeCodes_getElem? _ _ _ k (by simpa [blockCodes, hblock] using hk)

theorem byteAt_set_ne (q : List Byte) {i j : Nat} (x : Byte) (h : i ≠ j) : byteAt (q.set i x) j = byteAt q j := by
  simp [byteAt, List.getElem?_set_ne h]

theorem byteAt_set_self {q : List Byte} {i : Nat} (x : Byte) (h : i < q.length) : byteAt (q.set i x) i = x := by
  simp [byteAt, h]

/-- STEP_INDEX and RESERVED, bytes 2 and 3 of a block, are part neither of PREDICTOR nor of the codes (R79), so a block
with one of them changed decodes by its own index alone. -/
theorem decodeBlock_set_header (block : List Byte) (x : Byte) {i : Nat} (h2 : 2 ≤ i) (h4 : i < 4) :
    decodeBlock (block.set i x) =
      blockPredictor block :: decodeCodes (blockPredictor block) (blockIndex (block.set i x)) (blockCodes block) := by
  have hpred : blockPredictor (block.set i x) = blockPredictor block := by
    rw [blockPredictor, le16, byteAt_set_ne _ _ (by omega), byteAt_set_ne _ _ (by omega), ← le16, ← blockPredictor]
  have hcodes : blockCodes (block.set i x) = blockCodes block := by
    rw [blockCodes, List.drop_set_of_lt h4, ← blockCodes]
  rw [decodeBlock, hpred, hcodes]

/-- Settles O30: byte 3 is in no field the decoder reads, and the index is clamped to 88 when it is read (R104). -/
theorem decoderIgnoresReservedAndClampsIndex : Obligations.DecoderIgnoresReservedAndClampsIndex := by
  intro block x hblock
  have hindex (y : Byte) : blockIndex (block.set 2 y) = min y.toNat 88 := by
    rw [blockIndex, byteAt_set_self y (by omega)]
  refine ⟨?_, fun hx => ?_⟩
  · have hkept : blockIndex (block.set 3 x) = blockIndex block := by
      rw [blockIndex, byteAt_set_ne _ _ (by decide), ← blockIndex]
    rw [decodeBlock_set_header block x (by decide) (by decide), hkept, decodeBlock]
  · have hclamped : min x.toNat 88 = min (88#8).toNat 88 := Nat.min_eq_right hx
    simp only [decodeBlock_set_header block _ Nat.le.refl (by decide), hindex, hclamped]

/-! ### Encoding a block, and decoding it again -/

section EncodedBlock
variable {first : Int} {samples : List Int}

/-- Code positions without a sample hold the code 0 (R105). -/
theorem blockCodes_encodeBlock (h : samples.length + 1 ≤ 504) :
    blockCodes (encodeBlock (first :: samples)) =
      encodeCodes first 0 samples ++ List.replicate (504 - samples.length) 0#4 := by
  have hdrop : (encodeBlock (first :: samples)).drop 4 =
      packCodes (encodeCodes first 0 samples ++ List.replicate (504 - (encodeCodes first 0 samples).length) 0#4) := rfl
  rw [blockCodes, hdrop, codesOf_packCodes _ (by simp; omega), encodeCodes_length]

/-- Settles O32: four header bytes and 504 code positions, of which the samples' codes are the first. -/
theorem encodeBlockLayout : Obligations.EncodeBlockLayout := by
  intro first samples h
  refine ⟨encodeBlock_length h, rfl, fun k hk => ?_, fun k hk hk' => ?_⟩
  · rw [blockCodes_encodeBlock h, List.getElem?_append_left (by simpa using hk)]
  · rw [blockCodes_encodeBlock h, List.getElem?_append_right (by simpa using hk), List.getElem?_replicate,
      if_pos (by simp; omega)]

theorem blockPredictor_encodeBlock (h : InSampleRange first) :
    blockPredictor (encodeBlock (first :: samples)) = first :=
  (congrArg sext16 (low_add_high_toNat (BitVec.ofInt 16 first))).trans (sext16_ofInt h)

theorem decodeCodes_append (pred : Int) (idx : Nat) (l1 l2 : List Nibble) :
    decodeCodes pred idx (l1 ++ l2) =
      decodeCodes pred idx l1 ++ decodeCodes (decodeRun (pred, idx) l1).1 (decodeRun (pred, idx) l1).2 l2 := by
  induction l1 generalizing pred idx with
  | nil => rfl
  | cons n l1 ih => exact congrArg (_ :: ·) (ih _ _)

/-- R108: the encoder updates its predictor by the decoder step of the code it chose. -/
theorem decodeCodes_encodeCodes (pred : Int) (idx : Nat) (samples : List Int) :
    decodeCodes pred idx (encodeCodes pred idx samples) = encoderTrace pred idx samples := by
  induction samples generalizing pred idx with
  | nil => rfl
  | cons v samples ih => exact congrArg (_ :: ·) (ih _ _)

theorem decodeRun_encodeCodes (pred : Int) (idx : Nat) (samples : List Int) :
    decodeRun (pred, idx) (encodeCodes pred idx samples) = encoderEnd pred idx samples := by
  induction samples generalizing pred idx with
  | nil => rfl
  | cons v samples ih => exact ih _ _

/-- R108, for which only the first sample, kept whole in the header, has to be in range. -/
theorem decodeBlock_encodeBlock (h : samples.length + 1 ≤ 504) (hfirst : InSampleRange first) :
    decodeBlock (encodeBlock (first :: samples)) =
      first :: encoderTrace first 0 samples ++
        decodeCodes (encoderEnd first 0 samples).1 (encoderEnd first 0 samples).2
          (List.replicate (504 - samples.length) 0#4) := by
  have hindex : blockIndex (encodeBlock (first :: samples)) = 0 := rfl
  rw [decodeBlock, blockPredictor_encodeBlock hfirst, hindex, blockCodes_encodeBlock h, decodeCodes_append,
    decodeCodes_encodeCodes, decodeRun_encodeCodes, List.cons_append]

end EncodedBlock

/-- Settles O34: the decoder runs over the encoder's own codes, then over the padding codes (R108). -/
theorem decoderFollowsEncoder : Obligations.DecoderFollowsEncoder := fun _ _ h hfirst _ =>
  decodeBlock_encodeBlock h hfirst

theorem decodeNibble_from_zero_le (n : Nibble) : (decodeNibble 0 0 n).1.natAbs ≤ 11 := by
  revert n; decide

/-- Settles O36: sample 1 is the encoder's first step, which from predictor 0 and index 0 has magnitude at most 11
whatever the code (R112). -/
theorem firstStepFromZeroIsAtMostEleven : Obligations.FirstStepFromZeroIsAtMostEleven := by
  refine ⟨decodeNibble_from_zero_le, by decide, fun v samples _ h => ?_, ?_, by decide, by decide⟩
  · have hsmall := decodeNibble_from_zero_le (sampleCode 0 0 v)
    refine ⟨(decodeNibble 0 0 (sampleCode 0 0 v)).1, ?_, hsmall, by omega⟩
    rw [decodeBlock_encodeBlock (samples := v :: samples) h (by decide)]
    rfl
  · rw [decodeBlock_encodeBlock (by decide) (by decide)]
    decide

end Sys2Proof.Machine
end

section
/-! PROOFS. 40_codec.md section 3: streams, block by block (R106, R107, R109). -/

namespace Sys2Proof.Machine

/-! ### Blocks at the front of a sequence -/

theorem slice_append_right {α : Type} {l1 l2 : List α} {w : Nat} (h : l1.length = w) (i n : Nat) :
    slice (l1 ++ l2) (w + i) n = slice l2 i n := by
  simp [slice, ← h]

theorem slice_append_left {α : Type} {l1 l2 : List α} {w : Nat} (h : l1.length = w) : slice (l1 ++ l2) 0 w = l1 := by
  simp [slice, ← h]

theorem slice_eq_self {α : Type} {l : List α} {w : Nat} (h : l.length ≤ w) : slice l 0 w = l := by
  simpa [slice] using h

/-- A sequence handled in pieces of `w` elements: the first piece, then those of the rest. -/
theorem flatMap_slice_append {α β : Type} (f : List α → List β) {l1 l2 : List α} {w : Nat} (h : l1.length = w)
    (n : Nat) :
    (List.range (n + 1)).flatMap (fun j => f (slice (l1 ++ l2) (w * j) w)) =
      f l1 ++ (List.range n).flatMap (fun j => f (slice l2 (w * j) w)) := by
  have hrest (j : Nat) : slice (l1 ++ l2) (w * (j + 1)) w = slice l2 (w * j) w := by
    rw [Nat.mul_succ, Nat.add_comm, slice_append_right h]
  simp [List.range_succ_eq_map, List.flatMap_map, hrest, slice_append_left h]

/-! ### DecodeStream -/

section BlockInFront
variable {block : List Byte} (hblock : block.length = 256) (q : List Byte)
include hblock

theorem decodeWholeBlocks_append :
    decodeWholeBlocks (block ++ q) = decodeBlock block ++ decodeWholeBlocks q := by
  have hcount : (block ++ q).length / 256 = q.length / 256 + 1 := by rw [List.length_append]; omega
  rw [decodeWholeBlocks, hcount, flatMap_slice_append decodeBlock hblock, decodeWholeBlocks]

theorem truncated_append : truncated (block ++ q) = truncated q := by
  simp [truncated, hblock]

theorem paddedTail_append : paddedTail (block ++ q) = paddedTail q := by
  have hdrop : 256 * ((block ++ q).length / 256) = block.length + 256 * (q.length / 256) := by
    rw [List.length_append]; omega
  have hmod : (block ++ q).length % 256 = q.length % 256 := by rw [List.length_append]; omega
  rw [paddedTail, hdrop, hmod, List.drop_length_add_append, paddedTail]

/-- R106: one block after the other. -/
theorem decodeStream_append (pad : Bool) :
    decodeStream pad (block ++ q) = decodeBlock block ++ decodeStream pad q := by
  simp only [decodeStream, decodeWholeBlocks_append hblock, truncated_append hblock, paddedTail_append hblock,
    List.append_assoc]

end BlockInFront

/-- R106: a sequence shorter than a block has no whole block. -/
theorem decodeWholeBlocks_short {q : List Byte} (h : q.length < 256) : decodeWholeBlocks q = [] := by
  simp [decodeWholeBlocks, Nat.div_eq_of_lt h]

theorem paddedTail_short {q : List Byte} (h : q.length < 256) : paddedTail q = q ++ zeros (256 - q.length) := by
  simp [paddedTail, Nat.div_eq_of_lt h, Nat.mod_eq_of_lt h]

theorem truncated_short {q : List Byte} (hpos : 0 < q.length) (h : q.length < 256) : truncated q = true := by
  rw [truncated, decide_eq_true_iff, Nat.mod_eq_of_lt h]
  exact Nat.ne_of_gt hpos

/-- Settles O31: a whole block is decoded before the rest, and a rest shorter than a block is only a tail (R106). -/
theorem decodeStreamGoesBlockByBlock : Obligations.DecodeStreamGoesBlockByBlock := by
  intro pad block q
  refine ⟨fun hblock => decodeStream_append hblock q pad, fun hpos hshort => ⟨?_, ?_⟩, rfl⟩
  · simp [decodeStream, decodeWholeBlocks_short hshort]
  · simp [decodeStream, decodeWholeBlocks_short hshort, truncated_short hpos hshort, paddedTail_short hshort]

/-! ### EncodeStream -/

theorem encodeBlocks_append {s1 : List Int} (h : s1.length = 504) (s2 : List Int) :
    encodeBlocks (s1 ++ s2) = encodeBlock s1 ++ encodeBlocks s2 := by
  have hcount : ((s1 ++ s2).length + (504 - 1)) / 504 = (s2.length + (504 - 1)) / 504 + 1 := by
    rw [List.length_append]; omega
  rw [encodeBlocks, hcount, flatMap_slice_append encodeBlock h, encodeBlocks]

/-- R107: the last block, whole or not. -/
theorem encodeBlocks_last {samples : List Int} (hpos : 0 < samples.length) (h : samples.length ≤ 504) :
    encodeBlocks samples = encodeBlock samples := by
  have hcount : (samples.length + (504 - 1)) / 504 = 1 := by omega
  rw [encodeBlocks, hcount]
  simp [slice_eq_self h]

/-- Settles O33: the byte clauses are the sample clauses at the samples of the bytes (R107, R53). -/
theorem encodeStreamGoesBlockByBlock : Obligations.EncodeStreamGoesBlockByBlock := by
  refine ⟨fun q => ⟨rfl, encodeStream_length q⟩, fun q1 q2 => ⟨fun hlen => ?_, fun hmin hmax => ?_, fun hshort => ?_⟩,
    fun s1 s2 => ⟨fun hlen => encodeBlocks_append hlen s2, encodeBlocks_last, rfl, encodeBlocks_length s1⟩⟩
  · rw [encodeStream, samplesOf_append q1 q2 (by omega),
      encodeBlocks_append (by rw [samplesOf_length]; omega), encodeStream]
  · exact encodeBlocks_last (by rw [samplesOf_length]; omega) (by rw [samplesOf_length]; omega)
  · have hnone : samplesOf q1 = [] := List.eq_nil_of_length_eq_zero (by rw [samplesOf_length]; omega)
    rw [encodeStream, hnone]
    rfl

/-- Settles O35: an encoded stream is whole blocks, so TRUNC_PAD has no tail to pad (R109). -/
theorem roundTripSampleCount : Obligations.RoundTripSampleCount := by
  intro pad q
  have hwhole : truncated (encodeStream q) = false := by simp [truncated, encodeStream_length]
  simp [decodeStream_length, hwhole, encodeStream_length]

end Sys2Proof.Machine
end

section
/-! PROOFS. 40_codec.md section 4: the commands DECODE and ENCODE (R110, R111). -/

namespace Sys2Proof.Machine

/-- R74 (c): every command refuses an operand of 2^32 bytes or more. -/
theorem exec_of_longOperand (i : Instr) {s : State} (h : 2 ^ 32 ≤ s.op.length) : exec i s = .next (illegalAnswer s) :=
  exec_of_illegal fun ⟨_, hfits, _⟩ => absurd hfits (Nat.not_lt.mpr h)

/-- A report of `k` when `p` holds, and the bytes `q`: the whole answer. -/
theorem raiseIf_output_eq (s : State) (p : Prop) [Decidable p] (k : ErrorKind) (q : List Byte) :
    (s.beginAnswer.raiseIf (decide p) k).output q =
      { s with
        out := q
        ev := if p then [.error k] else []
        sticky := if p then s.sticky ||| k.stickyBit else s.sticky } := by
  ext1 <;> simp

theorem exec_decode {s : State} (h : s.op.length < 2 ^ 32) :
    exec .decode s =
      .next ((s.beginAnswer.raiseIf (truncated s.op) .truncatedBlock).output
        (pcmBytes (decodeStream s.truncPad s.op))) :=
  exec_of_legal (i := .decode) ⟨rfl, h, .inl rfl⟩

theorem exec_encode {s : State} (h : s.op.length < 2 ^ 32) :
    exec .encode s = .next ((s.beginAnswer.raiseIf (oddLength s.op) .oddByte).output (encodeStream s.op)) :=
  exec_of_legal (i := .encode) ⟨rfl, h, .inl rfl⟩

/-- Settles O37: DECODE's word, its refusal, and its report and samples (R110). -/
theorem decodeAnswersDecodedSamples : Obligations.DecodeAnswersDecodedSamples :=
  ⟨by decide, fun _ => exec_of_longOperand .decode, fun s h =>
    (exec_decode h).trans (congrArg Host.Outcome.next (raiseIf_output_eq s (s.op.length % 256 ≠ 0) .truncatedBlock _))⟩

/-- Settles O38: 505 samples of two bytes for each decoded block (R110). -/
theorem decodeOutputLength : Obligations.DecodeOutputLength := by
  intro s h
  refine ⟨_, exec_decode h, ?_⟩
  have hlength := decodeStream_length s.truncPad s.op
  simp only [truncated, Bool.and_eq_true, decide_eq_true_eq] at hlength
  simp only [output_out, raiseIf_out, beginAnswer_out, List.nil_append, pcmBytes_length, hlength]
  exact (Nat.mul_assoc 2 505 _).symm

/-- Settles O39: ENCODE's word, its refusal, and its report and blocks (R111). -/
theorem encodeAnswersEncodedBlocks : Obligations.EncodeAnswersEncodedBlocks :=
  ⟨by decide, fun _ => exec_of_longOperand .encode, fun s h =>
    (exec_encode h).trans (congrArg Host.Outcome.next (raiseIf_output_eq s (s.op.length % 2 = 1) .oddByte _))⟩

end Sys2Proof.Machine
end

section
/-! PROOFS. 41_frame.md: FRAME_BUILD's answer (R130, R131), and that the reassembler receives it (R132, R145). -/

namespace Sys2Proof.Machine

/-! ### FRAME_BUILD (R130, R131) -/

theorem exec_frameBuild {s : State} (h : s.op.length < 2 ^ 32) :
    exec .frameBuild s =
      .next ((s.beginAnswer.raiseIf (s.txCompressed && oddLength s.op) .oddByte).output
        (buildFrame s.params (builtPayload s))) :=
  (exec_of_legal (i := .frameBuild) ⟨rfl, h, .inl rfl⟩).trans
    (congrArg Host.Outcome.next (frameBuildEffect_eq s.beginAnswer))

/-- Settles O40: FRAME_BUILD's word, its refusal, and in each setting of TX_COMPRESSED its report and frame. -/
theorem frameBuildAnswersFrame : Obligations.FrameBuildAnswersFrame := by
  refine ⟨by decide, fun _ => exec_of_longOperand .frameBuild, fun s hop => ⟨fun htx => ?_, fun htx => ?_⟩⟩
  · have hpayload : builtPayload s = s.op := by simp [builtPayload, htx]
    rw [exec_frameBuild hop, htx, hpayload]
    rfl
  · have hpayload : builtPayload s = encodeStream s.op := by simp [builtPayload, htx]
    refine ⟨encodeStream_length s.op, hpayload ▸ builtPayload_length_lt hop, ?_⟩
    rw [exec_frameBuild hop, htx, hpayload]
    exact congrArg Host.Outcome.next (raiseIf_output_eq s (s.op.length % 2 = 1) .oddByte _)

/-! ### The header phase on the start of a built frame (R141, R142) -/

theorem byteAt_of_prefix {q r : List Byte} (h : q <+: r) {i : Nat} (hi : i < q.length) : byteAt q i = byteAt r i := by
  obtain ⟨t, rfl⟩ := h
  exact (List.getD_append q t 0#8 i hi).symm

theorem le32_of_prefix {q r : List Byte} (h : q <+: r) {i : Nat} (hi : i + 4 ≤ q.length) : le32 q i = le32 r i := by
  simp (disch := omega) only [le32, byteAt_of_prefix h]

/-- The header loop keeps a buffer that passes the marker test and declares, if it can, a plausible length. -/
theorem scanHeader_keeps {p : Params} {q : List Byte} (hmarker : q = [] ∨ markerPrefix p q = true)
    (hcap : 6 ≤ q.length → declaredTotal q ≤ p.rxCapacity) :
    scanHeader p q = ⟨q, if q.length < 6 then none else some (declaredTotal q), false⟩ := by
  cases q with
  | nil => rfl
  | cons b q =>
    have hmarker' : markerPrefix p (b :: q) = true := hmarker.resolve_left (List.cons_ne_nil b q)
    rw [scanHeader, if_pos hmarker']
    by_cases hshort : (b :: q).length < 6
    · rw [if_pos hshort, if_pos hshort]
    · rw [if_neg hshort, if_neg hshort, if_neg (Nat.not_lt.mpr (hcap (Nat.not_lt.mp hshort)))]

theorem trustHeader_keeps {p : Params} {q : List Byte} (hcap : 6 ≤ q.length → declaredTotal q ≤ p.rxCapacity) :
    trustHeader p q = ⟨q, if q.length < 6 then none else some (declaredTotal q), false⟩ := by
  obtain ⟨heq, hshort⟩ | ⟨-, hlen, himplausible⟩ | ⟨heq, hlen, -⟩ := trustHeader_cases p q
  · rw [heq, if_pos hshort]
  · exact absurd himplausible (Nat.not_lt.mpr (hcap hlen))
  · rw [heq, if_neg (Nat.not_lt.mpr hlen)]

theorem markerPrefix_of_prefix_buildFrame {p : Params} {payload q : List Byte} (h : q <+: buildFrame p payload) :
    q = [] ∨ markerPrefix p q = true := by
  match q with
  | [] => exact .inl rfl
  | [b0] =>
    obtain ⟨h0, -⟩ := List.cons_prefix_cons.mp h
    exact .inr (by simp [markerPrefix, h0])
  | b0 :: b1 :: q =>
    obtain ⟨h0, h⟩ := List.cons_prefix_cons.mp h
    obtain ⟨h1, -⟩ := List.cons_prefix_cons.mp h
    exact .inr (by simp [markerPrefix, h0, h1])

section BuiltFrame
variable {p : Params} {payload : List Byte} (hwf : p.wf) (hfits : 6 + payload.length ≤ p.rxCapacity)
include hwf hfits

theorem declaredTotal_of_prefix_buildFrame {q : List Byte} (h : q <+: buildFrame p payload) (hlen : 6 ≤ q.length) :
    declaredTotal q = 6 + payload.length := by
  have hshort : payload.length < 2 ^ 32 := by have := hwf.2; omega
  rw [declaredTotal, le32_of_prefix h (by simpa using hlen), le32_buildFrame p hshort]

/-- In both settings of RESYNC_SCAN the header loop keeps the bytes of a frame that have arrived, and takes the frame's
length once the header is whole (R145). -/
theorem parseHeader_of_prefix_buildFrame (scan : Bool) {q : List Byte} (h : q <+: buildFrame p payload) :
    parseHeader scan p q = ⟨q, if q.length < 6 then none else some (6 + payload.length), false⟩ := by
  have htotal (hlen : 6 ≤ q.length) : declaredTotal q = 6 + payload.length :=
    declaredTotal_of_prefix_buildFrame hwf hfits h hlen
  have hcap (hlen : 6 ≤ q.length) : declaredTotal q ≤ p.rxCapacity := htotal hlen ▸ hfits
  have hkept : parseHeader scan p q = ⟨q, if q.length < 6 then none else some (declaredTotal q), false⟩ := by
    cases scan with
    | true => exact scanHeader_keeps (markerPrefix_of_prefix_buildFrame h) hcap
    | false => exact trustHeader_keeps hcap
  rw [hkept]
  split
  · rfl
  · next hlong => rw [htotal (Nat.not_lt.mp hlong)]

end BuiltFrame

/-! ### The receive state while a frame arrives -/

/-- The receive state in which the bytes `q` of a frame of `total` bytes have arrived (R32 to R34). -/
def State.holding (total : Nat) (q : List Byte) (s : State) : State :=
  { s with
    rxBuf := q
    rxState := if q.length < 6 then .awaitingHeader else .accumulating
    rxExpected := if q.length < 6 then none else some total }

theorem holding_nil {s : State} (total : Nat) (hstate : s.rxState = .awaitingHeader) (hexpected : s.rxExpected = none)
    (hbuf : s.rxBuf = []) : s.holding total [] = s := by
  ext1 <;> simp [State.holding, hstate, hexpected, hbuf]

/-- A header phase that keeps `q`, and takes the total once the header is whole, leaves `q` held (R142). -/
theorem acceptHeader_eq_holding {s : State} (total : Nat) (q : List Byte) (hstate : s.rxState = .awaitingHeader)
    (hexpected : s.rxExpected = none) :
    s.acceptHeader ⟨q, if q.length < 6 then none else some total, false⟩ = s.holding total q := by
  by_cases hshort : q.length < 6
  · simp only [State.acceptHeader, State.holding, if_pos hshort, hstate, hexpected]
  · simp only [State.acceptHeader, State.holding, if_neg hshort]

theorem completionPhase_holding_partial (s : State) {total : Nat} {q : List Byte} (h : q.length < total) :
    completionPhase (s.holding total q) = s.holding total q := by
  obtain ⟨total', -, hexpected, hlen, -⟩ | ⟨-, heq⟩ := completionPhase_cases (s.holding total q)
  · obtain ⟨-, htotal⟩ : ¬ q.length < 6 ∧ total = total' := by simpa [State.holding] using hexpected
    exact absurd hlen (Nat.not_le.mpr (htotal ▸ h))
  · exact heq

theorem completionPhase_holding_whole (s : State) {total : Nat} {q : List Byte} (hsix : 6 ≤ q.length)
    (h : q.length = total) : completionPhase (s.holding total q) = completeFrame total (s.holding total q) := by
  have hstate : (s.holding total q).rxState = .accumulating := if_neg (Nat.not_lt.mpr hsix)
  have hexpected : (s.holding total q).rxExpected = some total := if_neg (Nat.not_lt.mpr hsix)
  obtain ⟨total', -, hexpected', -, heq⟩ | ⟨hshort, -⟩ := completionPhase_cases (s.holding total q)
  · obtain rfl := Option.some.inj (hexpected.symm.trans hexpected')
    exact heq
  · exact absurd (hshort total hstate hexpected) (Nat.not_lt.mpr h.ge)

/-- A completed frame leaves nothing held (R144). -/
theorem completeFrame_eq_holding_nil (total : Nat) (s : State) :
    completeFrame total s = (completeFrame total s).holding total [] := rfl

theorem completeFrame_ev (total : Nat) (s : State) :
    (completeFrame total s).ev =
      s.ev ++ (if total < s.rxBuf.length then [.error .excessDiscarded] else []) ++
        (if s.rxCompressed && truncated (framePayload s.rxBuf total) then [.error .truncatedBlock] else []) ++
        [.complete (framePayload s.rxBuf total) (s.decodedPayload (framePayload s.rxBuf total))] := by
  simp [completeFrame]

theorem framePayload_buildFrame (p : Params) (payload : List Byte) :
    framePayload (buildFrame p payload) (6 + payload.length) = payload := by
  rw [framePayload, ← buildFrame_length p, List.take_length]
  rfl

/-- R143, R149: a frame that is the whole buffer has no excess. -/
theorem completeFrame_buildFrame_ev {s : State} {p : Params} {payload : List Byte}
    (hbuf : s.rxBuf = buildFrame p payload) (hev : s.ev = [.progress]) :
    (completeFrame (6 + payload.length) s).ev = completingEvents payload s := by
  simp [completeFrame_ev, hbuf, hev, framePayload_buildFrame, completingEvents]

/-! ### One fragment of a frame (R140) -/

theorem step_rxFragment {s : State} {f : List Byte} {rest : List HostAction}
    (hinbox : s.inbox = .command (encode .rxFragment) f :: rest) (hf : f.length < 2 ^ 32) :
    step s = .next (rxFragmentEffect (State.beginAnswer { s with inbox := rest, op := f })) := by
  rw [step_of_decode_ok hinbox (decode_encode .rxFragment)]
  exact exec_of_legal (i := .rxFragment) ⟨rfl, hf, .inl rfl⟩

/-- What a fragment that completes no frame does apart from the receive state: it is taken from the inbox and answered
with PROGRESS (R140). -/
def State.takeFragment (f : List Byte) (rest : List HostAction) (s : State) : State :=
  (State.beginAnswer { s with inbox := rest, op := f }).emit .progress

theorem answers_succ {s t : State} (h : step s = .next t) (n : Nat) : answers (n + 1) s = t.ev :: answers n t := by
  simp only [answers, h]

section Fragment
variable {s : State} {payload q : List Byte} (hwf : s.params.wf) (hfits : 6 + payload.length ≤ s.params.rxCapacity)
include hwf hfits

/-- The header phase leaves the frame's bytes held, whether the header was whole before or not. -/
theorem headerPhase_holding (h : q ++ s.op <+: buildFrame s.params payload) :
    headerPhase (s.holding (6 + payload.length) q).appendFragment = s.holding (6 + payload.length) (q ++ s.op) := by
  by_cases hshort : q.length < 6
  · have hawait : (s.holding (6 + payload.length) q).appendFragment.rxState = .awaitingHeader := if_pos hshort
    have hnone : (s.holding (6 + payload.length) q).appendFragment.rxExpected = none := if_pos hshort
    have hparse := parseHeader_of_prefix_buildFrame hwf hfits s.resyncScan h
    rw [headerPhase_awaiting hawait]
    refine (congrArg (fun r => (State.acceptHeader r _).raiseIf r.framing .framingError) hparse).trans ?_
    exact acceptHeader_eq_holding _ _ hawait hnone
  · have hlong : ¬ (q ++ s.op).length < 6 := by simp; omega
    have hphase : (s.holding (6 + payload.length) q).appendFragment.rxState = .accumulating := if_neg hshort
    rw [headerPhase_accumulating hphase]
    simp only [State.holding, State.appendFragment, if_neg hshort, if_neg hlong]

variable {f : List Byte} {rest : List HostAction} (hinbox : s.inbox = .command (encode .rxFragment) f :: rest)
  (h : q ++ f <+: buildFrame s.params payload)
include hinbox h

/-- A fragment of the frame is legal, and its bytes are held when the completion phase begins. -/
theorem step_holding :
    step (s.holding (6 + payload.length) q) =
      .next (completionPhase ((s.takeFragment f rest).holding (6 + payload.length) (q ++ f))) := by
  have hf : f.length < 2 ^ 32 := by
    have hlen := h.length_le
    have hbound := hwf.2
    rw [List.length_append, buildFrame_length] at hlen
    omega
  have hheader := headerPhase_holding (s := State.beginAnswer { s with inbox := rest, op := f }) hwf hfits h
  rw [step_rxFragment (s := s.holding _ q) hinbox hf]
  exact congrArg (fun t => Host.Outcome.next (completionPhase (State.emit .progress t))) hheader

theorem step_holding_partial (hpartial : (q ++ f).length < 6 + payload.length) :
    step (s.holding (6 + payload.length) q) =
      .next ((s.takeFragment f rest).holding (6 + payload.length) (q ++ f)) := by
  rw [step_holding hwf hfits hinbox h, completionPhase_holding_partial _ hpartial]

end Fragment

/-- R145: the fragment with the frame's last byte completes it and re-arms. -/
theorem step_holding_whole {s : State} {payload q f : List Byte} {rest : List HostAction} (hwf : s.params.wf)
    (hfits : 6 + payload.length ≤ s.params.rxCapacity) (hinbox : s.inbox = .command (encode .rxFragment) f :: rest)
    (hwhole : q ++ f = buildFrame s.params payload) :
    ∃ t : State, step (s.holding (6 + payload.length) q) = .next (t.holding (6 + payload.length) []) ∧
      t.ev = completingEvents payload s ∧ t.params = s.params ∧ t.inbox = rest := by
  have hlen : (q ++ f).length = 6 + payload.length := by rw [hwhole, buildFrame_length]
  have hprefix : q ++ f <+: buildFrame s.params payload := hwhole ▸ List.prefix_rfl
  have hstep := step_holding hwf hfits hinbox hprefix
  rw [completionPhase_holding_whole _ (by omega) hlen, completeFrame_eq_holding_nil] at hstep
  exact ⟨_, hstep, completeFrame_buildFrame_ev hwhole rfl, completeFrame_params _ _, completeFrame_inbox _ _⟩

/-! ### A whole frame, in any split (R145) -/

/-- Fragments that leave the frame incomplete answer PROGRESS alone, and their bytes are held in the end. -/
theorem answers_of_partialFrame {payload : List Byte} (fragments : List (List Byte)) {s : State} {q : List Byte}
    {rest : List HostAction} (hwf : s.params.wf) (hfits : 6 + payload.length ≤ s.params.rxCapacity)
    (hinbox : s.inbox = fragmentActions fragments ++ rest)
    (h : q ++ fragments.flatten <+: buildFrame s.params payload)
    (hpartial : (q ++ fragments.flatten).length < 6 + payload.length) :
    ∃ t : State, t.ctrl = s.ctrl ∧ t.params = s.params ∧ t.inbox = rest ∧ ∀ n,
      answers (fragments.length + n) (s.holding (6 + payload.length) q) =
        List.replicate fragments.length [.progress] ++
          answers n (t.holding (6 + payload.length) (q ++ fragments.flatten)) := by
  induction fragments generalizing s q with
  | nil => exact ⟨s, rfl, rfl, hinbox, fun n => by simp⟩
  | cons f fs ih =>
    rw [List.flatten_cons, ← List.append_assoc] at h hpartial ⊢
    have hfirst : (q ++ f).length < 6 + payload.length := by
      rw [List.length_append] at hpartial
      omega
    have hstep := step_holding_partial hwf hfits (f := f) (rest := fragmentActions fs ++ rest) hinbox
      ((List.prefix_append _ _).trans h) hfirst
    obtain ⟨t, hctrl, hparams, hrest, hanswers⟩ :=
      ih (s := s.takeFragment f (fragmentActions fs ++ rest)) hwf hfits rfl h hpartial
    refine ⟨t, hctrl, hparams, hrest, fun n => ?_⟩
    rw [List.length_cons, Nat.add_right_comm, answers_succ hstep, hanswers n]
    rfl

theorem completingEvents_congr {s t : State} (h : s.ctrl = t.ctrl) (payload : List Byte) :
    completingEvents payload s = completingEvents payload t := by
  rw [completingEvents, completingEvents, rxCompressed_congr h, decodedPayload_congr h]

/-- R145, with the split at the fragment that holds the frame's last byte. -/
theorem answers_of_splitFrame {s : State} {payload last : List Byte} {before after : List (List Byte)}
    {rest : List HostAction} (hwf : s.params.wf) (hstate : s.rxState = .awaitingHeader)
    (hexpected : s.rxExpected = none) (hbuf : s.rxBuf = []) (hfits : 6 + payload.length ≤ s.params.rxCapacity)
    (hframe : (before ++ last :: after).flatten = buildFrame s.params payload)
    (hbefore : before.flatten.length < 6 + payload.length)
    (hlast : 6 + payload.length ≤ before.flatten.length + last.length)
    (hinbox : s.inbox = fragmentActions (before ++ last :: after) ++ rest) :
    answers (before ++ last :: after).length s =
      List.replicate before.length [.progress] ++ [completingEvents payload s] ++
        List.replicate after.length [.progress] := by
  have hlen := congrArg List.length hframe
  simp only [List.flatten_append, List.flatten_cons, List.length_append, buildFrame_length] at hlen
  have hafter : after.flatten = [] := List.eq_nil_of_length_eq_zero (by omega)
  have hwhole : before.flatten ++ last = buildFrame s.params payload := by simpa [hafter] using hframe
  obtain ⟨t, hctrl, hparams, hrest, hfirst⟩ := answers_of_partialFrame (q := []) before hwf hfits
    (rest := fragmentActions (last :: after) ++ rest) (by simpa [fragmentActions] using hinbox)
    (hwhole ▸ List.prefix_append _ _) hbefore
  obtain ⟨u, hstep, hev, huparams, hurest⟩ := step_holding_whole (s := t) (hparams ▸ hwf) (hparams ▸ hfits) hrest
    (hparams ▸ hwhole)
  have hsame : u.params = s.params := huparams.trans hparams
  obtain ⟨v, -, -, -, hthen⟩ := answers_of_partialFrame (q := []) after (hsame ▸ hwf) (hsame ▸ hfits) hurest
    (by simp [hafter]) (by simp [hafter])
  have hevents : (u.holding (6 + payload.length) []).ev = completingEvents payload s :=
    hev.trans (completingEvents_congr hctrl payload)
  have hidle : answers after.length (u.holding (6 + payload.length) []) = List.replicate after.length [.progress] :=
    (hthen 0).trans (List.append_nil _)
  have hcount : (before ++ last :: after).length = before.length + (after.length + 1) := by simp
  rw [holding_nil (6 + payload.length) hstate hexpected hbuf, List.nil_append] at hfirst
  rw [hcount, hfirst, answers_succ hstep, hevents, hidle, List.append_assoc, List.singleton_append]

/-! ### What FRAME_BUILD answers is received once (R132) -/

/-- Fragments that bring at least `n` bytes have one that brings the last of the first `n`. -/
theorem exists_fragment_reaching {n : Nat} (hpos : 0 < n) {fragments : List (List Byte)}
    (h : n ≤ fragments.flatten.length) :
    ∃ before last after, fragments = before ++ last :: after ∧ before.flatten.length < n ∧
      n ≤ before.flatten.length + last.length := by
  induction fragments generalizing n with
  | nil => exact absurd h (Nat.not_le.mpr hpos)
  | cons f fs ih =>
    rw [List.flatten_cons, List.length_append] at h
    by_cases hfirst : n ≤ f.length
    · exact ⟨[], f, fs, rfl, hpos, by simpa using hfirst⟩
    · obtain ⟨before, last, after, rfl, hbefore, hlast⟩ := ih (n := n - f.length) (by omega) (by omega)
      have hlen : (f :: before).flatten.length = f.length + before.flatten.length := List.length_append
      exact ⟨f :: before, last, after, rfl, by omega, by omega⟩

theorem filter_isComplete_completingEvents (payload : List Byte) (s : State) :
    (completingEvents payload s).filter Event.isComplete = [.complete payload (s.decodedPayload payload)] := by
  unfold completingEvents
  split <;> rfl

theorem filter_isComplete_progress (n : Nat) :
    ((List.replicate n [Event.progress]).flatten).filter Event.isComplete = [] := by
  simp [Event.isComplete]

/-- Settles O51: OUT is one built frame, so of the run's answers one alone has a COMPLETE, that of the fragment with the
frame's last byte (R132, R145). -/
theorem builtFrameIsReceivedOnce : Obligations.BuiltFrameIsReceivedOnce := by
  intro u b s fragments rest hop hbuild hparams hwf hstate hexpected hbuf hcap hflat hinbox
  have hout : b.out = buildFrame s.params (builtPayload u) := by
    rw [← Host.Outcome.next.inj ((exec_frameBuild hop).symm.trans hbuild), output_out, raiseIf_out, hparams]
    rfl
  have hpayload : b.out.drop 6 = builtPayload u := hout ▸ rfl
  have hlen : b.out.length = 6 + (builtPayload u).length := hout ▸ buildFrame_length _ _
  obtain ⟨before, last, after, rfl, hbefore, hlast⟩ :=
    exists_fragment_reaching (n := 6 + (builtPayload u).length) (by omega) (by rw [hflat, hlen])
  rw [answers_of_splitFrame hwf hstate hexpected hbuf (hlen ▸ hcap) (hflat.trans hout) hbefore hlast hinbox, hpayload]
  simp only [List.flatten_append, List.filter_append, filter_isComplete_progress, List.flatten_singleton,
    filter_isComplete_completingEvents, List.nil_append, List.append_nil]

end Sys2Proof.Machine
end

section
/-! PROOFS. 42_reassembler.md section 2: the header loop (R140 to R142), as the pseudocode writes it and as the least
number of bytes dropped. -/

namespace Sys2Proof.Machine

/-- The result of the header loop when a FramingError may have been noted before (R140's `framing`). -/
def HeaderResult.note (noted : Bool) (r : HeaderResult) : HeaderResult := { r with framing := noted || r.framing }

@[simp] theorem note_false (r : HeaderResult) : r.note false = r := rfl

@[simp] theorem note_note (a b : Bool) (r : HeaderResult) : (r.note b).note a = r.note (a || b) := by
  simp [HeaderResult.note, Bool.or_assoc]

/-! ### Where the scan stops (R141, R142) -/

/-- A stopped scan keeps the buffer. -/
theorem scanHeader_of_stops {p : Params} {q : List Byte} (h : ScanStops p q) :
    scanHeader p q = ⟨q, if q.length < 6 then none else some (declaredTotal q), false⟩ := by
  obtain hnil | ⟨hmarker, hshort | hcap⟩ := h
  · exact scanHeader_keeps (.inl hnil) (by simp [hnil])
  · exact scanHeader_keeps (.inr hmarker) fun hlen => absurd hshort (Nat.not_lt.mpr hlen)
  · exact scanHeader_keeps (.inr hmarker) fun _ => hcap

/-- Where the scan does not stop it drops one byte and notes a FramingError. -/
theorem scanHeader_of_not_stops {p : Params} {b : Byte} {q : List Byte} (h : ¬ ScanStops p (b :: q)) :
    scanHeader p (b :: q) = (scanHeader p q).note true := by
  rw [scanHeader]
  split
  · next hmarker =>
    have hgoesOn : ¬ ((b :: q).length < 6 ∨ declaredTotal (b :: q) ≤ p.rxCapacity) :=
      fun hplausible => h (.inr ⟨hmarker, hplausible⟩)
    obtain ⟨hlong, himplausible⟩ := not_or.mp hgoesOn
    rw [if_neg hlong, if_pos (Nat.not_le.mp himplausible)]
    rfl
  · rfl

theorem not_scanStops_of_implausible {p : Params} {q : List Byte} (hlong : ¬ q.length < 6)
    (himplausible : p.rxCapacity < declaredTotal q) : ¬ ScanStops p q := by
  rintro (rfl | ⟨-, hshort | hcap⟩)
  · exact hlong (by decide)
  · exact hlong hshort
  · exact absurd himplausible (Nat.not_lt.mpr hcap)

/-- The scan drops the least number `d` of bytes after which it stops. -/
theorem scanHeader_eq_drop {p : Params} (d : Nat) {q : List Byte} (hstop : ScanStops p (q.drop d))
    (hleast : ∀ j, j < d → ¬ ScanStops p (q.drop j)) :
    scanHeader p q =
      ⟨q.drop d, if (q.drop d).length < 6 then none else some (declaredTotal (q.drop d)), decide (0 < d)⟩ := by
  induction d generalizing q with
  | zero => exact scanHeader_of_stops hstop
  | succ d ih =>
    have hfirst : ¬ ScanStops p q := hleast 0 (Nat.succ_pos d)
    cases q with
    | nil => exact absurd (.inl rfl) hfirst
    | cons b q =>
      rw [scanHeader_of_not_stops hfirst, ih hstop fun j hj => hleast (j + 1) (Nat.succ_lt_succ hj)]
      simp [HeaderResult.note]

/-! ### The loop as the pseudocode writes it (R140) -/

/-- The `while` of R140 drops bytes that the scan drops. -/
theorem scanHeader_scanWhile (p : Params) (q : List Byte) :
    (scanHeader p (scanWhile p q).1).note (scanWhile p q).2 = scanHeader p q := by
  induction q with
  | nil => rfl
  | cons b q ih =>
    rw [scanWhile]
    split
    · rfl
    · next hmarker =>
      have hdrops : ¬ ScanStops p (b :: q) := by simp [ScanStops, hmarker]
      rw [scanHeader_of_not_stops hdrops, ← ih, note_note, Bool.true_or]

/-- The `while` of R140 leaves an empty buffer or one that passes the marker test. -/
theorem scanWhile_markerPrefix (p : Params) (q : List Byte) :
    (scanWhile p q).1 = [] ∨ markerPrefix p (scanWhile p q).1 = true := by
  induction q with
  | nil => exact .inl rfl
  | cons b q ih =>
    rw [scanWhile]
    split
    · next hmarker => exact .inr hmarker
    · exact ih

theorem scanWhile_length_le (p : Params) (q : List Byte) : (scanWhile p q).1.length ≤ q.length := by
  induction q with
  | nil => exact Nat.le_refl 0
  | cons b q ih =>
    rw [scanWhile]
    split
    · exact Nat.le_refl _
    · exact Nat.le_succ_of_le ih

/-- With RESYNC_SCAN = 1 every iteration but the last drops at least one byte, so one more iteration than the buffer has
bytes is enough (R237). -/
theorem headerLoop_scan {p : Params} (fuel : Nat) {q : List Byte} (noted : Bool) (h : q.length < fuel) :
    headerLoop true p fuel q noted = some ((scanHeader p q).note noted) := by
  induction fuel generalizing q noted with
  | zero => exact absurd h (Nat.not_lt_zero _)
  | succ fuel ih =>
    have hkept := scanWhile_markerPrefix p q
    have hlen := scanWhile_length_le p q
    rw [← scanHeader_scanWhile, note_note, headerLoop]
    simp only [if_true]
    generalize (scanWhile p q).1 = kept, (scanWhile p q).2 = dropped at *
    by_cases hshort : kept.length < 6
    · rw [if_pos hshort, scanHeader_keeps hkept fun hsix => absurd hshort (Nat.not_lt.mpr hsix), if_pos hshort]
      simp [HeaderResult.note]
    by_cases himplausible : p.rxCapacity < declaredTotal kept
    · rw [if_neg hshort, if_pos himplausible]
      cases kept with
      | nil => exact absurd (Nat.zero_lt_succ 5) hshort
      | cons b kept =>
        have hdrops : ¬ ScanStops p (b :: kept) := not_scanStops_of_implausible hshort himplausible
        rw [scanHeader_of_not_stops hdrops, note_note, Bool.or_true, List.drop_one, List.tail_cons]
        exact ih true (by rw [List.length_cons] at hlen; omega)
    · rw [if_neg hshort, if_neg himplausible, scanHeader_keeps hkept fun _ => Nat.not_lt.mp himplausible, if_neg hshort]
      simp [HeaderResult.note]

/-- With RESYNC_SCAN = 0 the first iteration is the last. -/
theorem headerLoop_trust (p : Params) (fuel : Nat) (q : List Byte) :
    headerLoop false p (fuel + 1) q false = some (trustHeader p q) := by
  obtain ⟨heq, hshort⟩ | ⟨heq, hlong, himplausible⟩ | ⟨heq, hlong, hcap⟩ := trustHeader_cases p q
  · simp [headerLoop, heq, hshort]
  · simp [headerLoop, heq, Nat.not_lt.mpr hlong, himplausible]
  · simp [headerLoop, heq, Nat.not_lt.mpr hlong, Nat.not_lt.mpr hcap]

/-- Settles O42: with RESYNC_SCAN = 1 by induction on the iterations left; with 0 there is one iteration. -/
theorem headerLoopEndsAsWritten : Obligations.HeaderLoopEndsAsWritten := by
  intro scan p q
  cases scan with
  | true => exact headerLoop_scan _ false (Nat.lt_succ_self _)
  | false => exact headerLoop_trust p q.length q

end Sys2Proof.Machine
end

section
/-! PROOFS. 42_reassembler.md section 2: the whole answer of RX_FRAGMENT (R140, R142 to R149). -/

namespace Sys2Proof.Machine

/-! ### Between the header phase and the completion phase -/

/-- What RX_FRAGMENT has in the buffer, and the total it expects, after the header phase: in ACCUMULATING the fragment is
only appended. -/
def State.foundHeader (s : State) : HeaderResult :=
  match s.rxState with
  | .accumulating => ⟨s.rxBuf ++ s.op, s.rxExpected, false⟩
  | .awaitingHeader => parseHeader s.resyncScan s.params (s.rxBuf ++ s.op)

theorem foundHeader_awaiting {s : State} (h : s.rxState = .awaitingHeader) :
    s.foundHeader = parseHeader s.resyncScan s.params (s.rxBuf ++ s.op) := by
  rw [State.foundHeader, h]

theorem foundHeader_accumulating {s : State} (h : s.rxState = .accumulating) :
    s.foundHeader = ⟨s.rxBuf ++ s.op, s.rxExpected, false⟩ := by
  rw [State.foundHeader, h]

/-- The state between the two phases, FramingError and PROGRESS reported, when the header phase found `r`. -/
def State.afterHeader (r : HeaderResult) (s : State) : State :=
  { s.acceptHeader r with
    sticky := s.sticky ||| (if r.framing then 0b00001#5 else 0#5)
    out := []
    ev := framingReport r.framing ++ [.progress] }

@[simp] theorem afterHeader_rxBuf (r : HeaderResult) (s : State) : (s.afterHeader r).rxBuf = r.buf :=
  acceptHeader_rxBuf s r
@[simp] theorem afterHeader_out (r : HeaderResult) (s : State) : (s.afterHeader r).out = [] := rfl
@[simp] theorem afterHeader_ev (r : HeaderResult) (s : State) :
    (s.afterHeader r).ev = framingReport r.framing ++ [.progress] := rfl

theorem raiseIf_sticky_eq_or (s : State) (c : Bool) (k : ErrorKind) :
    (s.raiseIf c k).sticky = s.sticky ||| (if c then k.stickyBit else 0#5) := by
  cases c <;> simp

/-- In ACCUMULATING the receive state already is what accepting the found header would make it. -/
theorem acceptHeader_foundHeader_accumulating {s : State} (h : s.rxState = .accumulating) :
    s.acceptHeader s.foundHeader = s.appendFragment := by
  rw [foundHeader_accumulating h]
  ext1 <;> cases hexp : s.rxExpected <;> simp [h, hexp]

theorem headerPhase_eq_afterHeader (s : State) :
    (headerPhase s.beginAnswer.appendFragment).emit .progress = s.afterHeader s.foundHeader := by
  cases h : s.rxState with
  | accumulating =>
    rw [headerPhase_accumulating (s := s.beginAnswer.appendFragment) h, State.afterHeader,
      acceptHeader_foundHeader_accumulating h, foundHeader_accumulating h]
    ext1 <;> simp [framingReport]
  | awaitingHeader =>
    have hparse : parseHeader s.beginAnswer.appendFragment.resyncScan s.params (s.rxBuf ++ s.op) = s.foundHeader :=
      (foundHeader_awaiting h).symm
    rw [headerPhase_awaiting (s := s.beginAnswer.appendFragment) h]
    simp only [appendFragment_params, appendFragment_rxBuf, beginAnswer_params, beginAnswer_rxBuf, beginAnswer_op, hparse]
    ext1 <;> simp [State.afterHeader, framingReport, raiseIf_sticky_eq_or, ErrorKind.stickyBit, -raiseIf_sticky]

theorem exec_rxFragment {s : State} (h : s.op.length < 2 ^ 32) :
    exec .rxFragment s = .next (completionPhase (s.afterHeader s.foundHeader)) :=
  (exec_of_legal (i := .rxFragment) ⟨rfl, h, .inl rfl⟩).trans
    (congrArg (fun t => Host.Outcome.next (completionPhase t)) (headerPhase_eq_afterHeader s))

/-! ### The three ways an RX_FRAGMENT ends -/

theorem completionPhase_partial {s : State}
    (h : ∀ total, s.rxState = .accumulating → s.rxExpected = some total → s.rxBuf.length < total) :
    completionPhase s = s := by
  obtain ⟨total, hstate, hexpected, hlen, -⟩ | ⟨-, heq⟩ := completionPhase_cases s
  · exact absurd hlen (Nat.not_le.mpr (h total hstate hexpected))
  · exact heq

theorem completionPhase_whole {s : State} {total : Nat} (hstate : s.rxState = .accumulating)
    (hexpected : s.rxExpected = some total) (hlen : total ≤ s.rxBuf.length) :
    completionPhase s = completeFrame total s := by
  obtain ⟨total', -, hexpected', -, heq⟩ | ⟨hshort, -⟩ := completionPhase_cases s
  · obtain rfl := Option.some.inj (hexpected.symm.trans hexpected')
    exact heq
  · exact absurd hlen (Nat.not_le.mpr (hshort total hstate hexpected))

/-- A completion after the header phase leaves the received frame's state. -/
theorem completeFrame_afterHeader (s : State) (q : List Byte) (total : Nat) (noted : Bool) :
    completeFrame total (s.afterHeader ⟨q, some total, noted⟩) = receivedFrame s q total noted := by
  have hpcm (payload : List Byte) :
      (s.afterHeader ⟨q, some total, noted⟩).decodedPayload payload = s.decodedPayload payload :=
    decodedPayload_congr rfl payload
  ext1
  case sticky => simp only [completeFrame, rearm_sticky, recordFrame_sticky, raiseIf_sticky_eq_or]; rfl
  case cache => rw [completeFrame_cache, hpcm]; rfl
  case ev => simp only [completeFrame_ev, hpcm, receivedFrame, decide_eq_true_eq]; rfl
  all_goals simp [completeFrame, receivedFrame, State.afterHeader]

section Endings
variable {s : State} {q : List Byte} {total : Nat} {noted : Bool} (hop : s.op.length < 2 ^ 32)
include hop

/-- Without a total to wait for, the bytes wait. -/
theorem exec_rxFragment_waits (hfound : s.foundHeader = ⟨q, none, noted⟩) :
    exec .rxFragment s = .next { s with
      rxBuf := q, sticky := s.sticky ||| (if noted then 0b00001#5 else 0#5), out := []
      ev := framingReport noted ++ [.progress] } := by
  rw [exec_rxFragment hop, hfound, completionPhase_partial]
  · rfl
  · intro total (hstate : s.rxState = .accumulating) (hexpected : s.rxExpected = some total)
    simp [foundHeader_accumulating hstate, hexpected] at hfound

theorem exec_rxFragment_accumulates (hfound : s.foundHeader = ⟨q, some total, noted⟩) (hlen : q.length < total) :
    exec .rxFragment s = .next { s with
      rxBuf := q, rxExpected := some total, rxState := .accumulating
      sticky := s.sticky ||| (if noted then 0b00001#5 else 0#5), out := []
      ev := framingReport noted ++ [.progress] } := by
  rw [exec_rxFragment hop, hfound, completionPhase_partial]
  · rfl
  · intro total' _ hexpected
    exact Option.some.inj hexpected ▸ hlen

theorem exec_rxFragment_completes (hfound : s.foundHeader = ⟨q, some total, noted⟩) (hlen : total ≤ q.length) :
    exec .rxFragment s = .next (receivedFrame s q total noted) := by
  rw [exec_rxFragment hop, hfound, completionPhase_whole rfl rfl hlen, completeFrame_afterHeader]

end Endings

/-! ### ACCUMULATING -/

/-- Settles O43: in ACCUMULATING the header phase only appends, and the buffer is shorter than the frame. -/
theorem fragmentAccumulates : Obligations.FragmentAccumulates := by
  intro s total hop hstate hexpected hlen
  have hfound : s.foundHeader = ⟨s.rxBuf ++ s.op, some total, false⟩ := hexpected ▸ foundHeader_accumulating hstate
  rw [exec_rxFragment_accumulates hop hfound hlen, ← hstate, ← hexpected]
  simp [framingReport]

/-- Settles O44: in ACCUMULATING the header phase only appends, and the whole frame is in the buffer. -/
theorem fragmentCompletesFrame : Obligations.FragmentCompletesFrame := by
  intro s total hop hstate hexpected hlen
  exact exec_rxFragment_completes hop (hexpected ▸ foundHeader_accumulating hstate) hlen

/-! ### AWAITING_HEADER -/

theorem trustHeader_short {p : Params} {q : List Byte} (h : q.length < 6) : trustHeader p q = ⟨q, none, false⟩ :=
  if_pos h

theorem trustHeader_implausible {p : Params} {q : List Byte} (h : 6 ≤ q.length)
    (himplausible : p.rxCapacity < declaredTotal q) : trustHeader p q = ⟨[], none, true⟩ :=
  (if_neg (Nat.not_lt.mpr h)).trans (if_pos himplausible)

theorem trustHeader_plausible {p : Params} {q : List Byte} (h : 6 ≤ q.length)
    (hcap : declaredTotal q ≤ p.rxCapacity) : trustHeader p q = ⟨q, some (declaredTotal q), false⟩ :=
  (if_neg (Nat.not_lt.mpr h)).trans (if_neg (Nat.not_lt.mpr hcap))

/-- Settles O45: the three results of the header phase without a scan, the last with an incomplete or a whole frame. -/
theorem trustedHeaderPhase : Obligations.TrustedHeaderPhase := by
  intro s hop hstate hscan q total
  have hfound : s.foundHeader = trustHeader s.params q := by rw [foundHeader_awaiting hstate, hscan]; rfl
  refine ⟨fun hshort => ?_, fun hlong himplausible => ?_, fun hlong hcap hpartial => ?_, fun hlong hcap hwhole => ?_⟩
  · rw [exec_rxFragment_waits hop (hfound.trans (trustHeader_short hshort))]
    simp [framingReport]
  · exact exec_rxFragment_waits hop (hfound.trans (trustHeader_implausible hlong himplausible))
  · rw [exec_rxFragment_accumulates hop (hfound.trans (trustHeader_plausible hlong hcap)) hpartial]
    simp [framingReport, total, declaredTotal]
  · exact exec_rxFragment_completes hop (hfound.trans (trustHeader_plausible hlong hcap)) hwhole

/-- Settles O46: the scan keeps what the least number of dropped bytes leaves, and notes a FramingError if there are any. -/
theorem scannedHeaderPhase : Obligations.ScannedHeaderPhase := by
  intro s d hop hstate hscan _ hstop hleast r noted total sticky
  have hfound : s.foundHeader = ⟨r, if r.length < 6 then none else some total, noted⟩ := by
    rw [foundHeader_awaiting hstate, hscan]
    exact scanHeader_eq_drop d hstop hleast
  refine ⟨fun hshort => ?_, fun hlong hpartial => ?_, fun hlong hwhole => ?_⟩
  · rw [if_pos hshort] at hfound
    exact exec_rxFragment_waits hop hfound
  · rw [if_neg (Nat.not_lt.mpr hlong)] at hfound
    exact exec_rxFragment_accumulates hop hfound hpartial
  · rw [if_neg (Nat.not_lt.mpr hlong)] at hfound
    exact exec_rxFragment_completes hop hfound hwhole

/-! ### The empty fragment (R140, corner case) -/

/-- Fewer bytes than a header that the scan, if it runs, would not trim. -/
theorem parseHeader_keeps_short {scan : Bool} {p : Params} {q : List Byte} (hshort : q.length < 6)
    (hkept : scan = false ∨ q = [] ∨ markerPrefix p q = true) : parseHeader scan p q = ⟨q, none, false⟩ := by
  cases scan with
  | false => exact trustHeader_short hshort
  | true =>
    have hmarker : q = [] ∨ markerPrefix p q = true := hkept.resolve_left (by decide)
    exact (scanHeader_keeps hmarker fun hlong => absurd hshort (Nat.not_lt.mpr hlong)).trans (by rw [if_pos hshort])

/-- Settles O48: between commands (R36) there is no whole frame in ACCUMULATING and no whole header in AWAITING_HEADER,
so an empty fragment brings neither phase anything to do. -/
theorem emptyFragmentChangesNothing : Obligations.EmptyFragmentChangesNothing := by
  intro s hinv hempty hkept
  have hop : s.op.length < 2 ^ 32 := by simp [hempty]
  have hsame : s.rxBuf ++ s.op = s.rxBuf := by simp [hempty]
  obtain ⟨hstate, -, hlen⟩ | ⟨total, hstate, hexpected, -, -, -, hlen⟩ := (rxInv_iff s).mp hinv.rx
  · have hfound : s.foundHeader = ⟨s.rxBuf, none, false⟩ := by
      rw [foundHeader_awaiting hstate, hsame]
      exact parseHeader_keeps_short (Nat.lt_succ_of_le hlen) (by simpa [hstate] using hkept)
    rw [exec_rxFragment_waits hop hfound]
    simp [framingReport]
  · rw [fragmentAccumulates s total hop hstate hexpected (hsame.symm ▸ hlen), hsame]

/-! ### The events (R148, R149) -/

/-- The completion phase's own events are in R149's order. -/
theorem completeFrame_ev_order (total : Nat) (s : State) :
    ∃ (excess partialBlock : Bool) (p : List Byte) (d : Option (List Byte)), (completeFrame total s).ev =
      s.ev ++ (if excess then [.error .excessDiscarded] else []) ++
        (if partialBlock then [.error .truncatedBlock] else []) ++ [.complete p d] :=
  ⟨decide (total < s.rxBuf.length), s.rxCompressed && truncated (framePayload s.rxBuf total),
    framePayload s.rxBuf total, s.decodedPayload (framePayload s.rxBuf total),
    by simp only [completeFrame_ev, decide_eq_true_eq]⟩

/-- Settles O47: FramingError and PROGRESS stand before the completion phase, which appends its events in order or
nothing. -/
theorem fragmentEventOrder : Obligations.FragmentEventOrder := by
  intro s hop
  have hexec := exec_rxFragment hop
  obtain ⟨total, -, -, -, heq⟩ | ⟨-, heq⟩ := completionPhase_cases (s.afterHeader s.foundHeader)
  · obtain ⟨excess, partialBlock, p, d, hev⟩ := completeFrame_ev_order total (s.afterHeader s.foundHeader)
    rw [heq] at hexec
    exact ⟨_, s.foundHeader.framing, excess, partialBlock, _, hexec, by simp [completeFrame], hev, .inr ⟨p, d, rfl⟩⟩
  · rw [heq] at hexec
    exact ⟨_, s.foundHeader.framing, false, false, [], hexec, rfl, by simp, .inl ⟨rfl, rfl, rfl⟩⟩

/-! ### The completion (R143, R144, R146) -/

theorem foundHeader_buf_length_le (s : State) : s.foundHeader.buf.length ≤ s.rxBuf.length + s.op.length := by
  rw [← List.length_append]
  cases hstate : s.rxState with
  | accumulating => rw [foundHeader_accumulating hstate]
  | awaitingHeader =>
    rw [foundHeader_awaiting hstate]
    cases s.resyncScan with
    | true => exact (scanHeader_suffix s.params (s.rxBuf ++ s.op)).length_le
    | false =>
      obtain ⟨heq, -⟩ | ⟨heq, -, -⟩ | ⟨heq, -, -⟩ := trustHeader_cases s.params (s.rxBuf ++ s.op) <;>
        simp [parseHeader, heq]

/-- A FramingError or PROGRESS is no COMPLETE. -/
theorem complete_not_mem_afterHeader (r : HeaderResult) (s : State) (p : List Byte) (d : Option (List Byte)) :
    Event.complete p d ∉ (s.afterHeader r).ev := by
  rw [afterHeader_ev, framingReport]
  cases r.framing <;> simp

/-- A completed frame emits one COMPLETE, with the payload it caches (R146). -/
theorem complete_mem_completeFrame_iff {total : Nat} {s : State} {p : List Byte} {d : Option (List Byte)}
    (h : Event.complete p d ∉ s.ev) :
    Event.complete p d ∈ (completeFrame total s).ev ↔
      p = framePayload s.rxBuf total ∧ d = s.decodedPayload (framePayload s.rxBuf total) := by
  rw [completeFrame_ev]
  simp only [List.mem_append, h, false_or, List.mem_singleton, Event.complete.injEq]
  constructor
  · rintro ((hexcess | htruncated) | hcomplete)
    · split at hexcess <;> simp at hexcess
    · split at htruncated <;> simp at htruncated
    · exact hcomplete
  · exact .inr

/-- R143: a payload is its frame without the header. -/
theorem framePayload_length {q : List Byte} {total : Nat} (hsix : 6 ≤ total) (hlen : total ≤ q.length) :
    6 + (framePayload q total).length = total := by
  simp only [framePayload, List.length_drop, List.length_take, frameHeaderBytes]
  omega

theorem decodedPayload_isSome (payload : List Byte) (s : State) :
    (s.decodedPayload payload).isSome = s.rxCompressed := by
  cases h : s.rxCompressed <;> simp [State.decodedPayload, h]

/-- An RX_FRAGMENT that emits COMPLETE is legal and completes a frame. -/
theorem exec_rxFragment_of_complete_mem {s t : State} {p : List Byte} {d : Option (List Byte)}
    (hexec : exec .rxFragment s = .next t) (hmem : Event.complete p d ∈ t.ev) :
    let u := s.afterHeader s.foundHeader
    ∃ total, u.rxState = .accumulating ∧ u.rxExpected = some total ∧ total ≤ u.rxBuf.length ∧
      t = completeFrame total u := by
  obtain ⟨⟨-, hop, -⟩, -⟩ | ⟨-, rfl⟩ := exec_cases hexec
  · obtain rfl := Host.Outcome.next.inj ((exec_rxFragment hop).symm.trans hexec)
    obtain ⟨total, hstate, hexpected, hlen, heq⟩ | ⟨-, heq⟩ := completionPhase_cases (s.afterHeader s.foundHeader)
    · exact ⟨total, hstate, hexpected, hlen, heq⟩
    · rw [heq] at hmem
      exact absurd hmem (complete_not_mem_afterHeader _ _ _ _)
  · simp at hmem

theorem afterHeader_rxPending {s : State} (h : s.rxInv) : (s.afterHeader s.foundHeader).RxPending := by
  rw [← headerPhase_eq_afterHeader]
  exact headerPhase_rxPending (s := s.beginAnswer) h

/-- The total a frame in ACCUMULATING was to have is the total it completes with. -/
theorem afterHeader_rxExpected {s : State} {total : Nat} (h : s.rxInv) (hexpected : s.rxExpected = some total) :
    (s.afterHeader s.foundHeader).rxExpected = some total := by
  obtain ⟨-, hnone, -⟩ | ⟨_, hstate, -⟩ := (rxInv_iff s).mp h
  · simp [hnone] at hexpected
  · simp [State.afterHeader, foundHeader_accumulating hstate, hexpected]

/-- Settles O49: the COMPLETE is the completion phase's, whose total is plausible (R142) and whose frame is in the buffer. -/
theorem completionIsCachedAndWhole : Obligations.CompletionIsCachedAndWhole := by
  intro s t p d hinv hexec hmem
  obtain ⟨total, hstate, hexpected, hlen, rfl⟩ := exec_rxFragment_of_complete_mem hexec hmem
  obtain ⟨rfl, rfl⟩ := (complete_mem_completeFrame_iff (complete_not_mem_afterHeader _ _ _ _)).mp hmem
  have hplausible : 6 ≤ total ∧ total ≤ s.params.rxCapacity := by
    obtain ⟨hawaiting, -, -⟩ | ⟨total', -, hexpected', hsix, hcap, -⟩ := afterHeader_rxPending hinv.rx
    · simp [hstate] at hawaiting
    · obtain rfl := Option.some.inj (hexpected.symm.trans hexpected')
      exact ⟨hsix, by simpa [State.afterHeader] using hcap⟩
  rw [framePayload_length hplausible.1 hlen]
  refine ⟨completeFrame_cache _ _, ?_, completeFrame_rxState _ _, completeFrame_rxBuf _ _, completeFrame_rxExpected _ _,
    ?_, hlen.trans ?_, hplausible.2, fun total' hwas => ?_⟩
  · simp [State.afterHeader]
  · rw [decodedPayload_isSome]
    exact rxCompressed_congr (acceptHeader_ctrl _ _)
  · rw [afterHeader_rxBuf]
    exact foundHeader_buf_length_le s
  · exact Option.some.inj (hexpected.symm.trans (afterHeader_rxExpected hinv.rx hwas))

/-! ### A whole frame (R145) -/

/-- Settles O50: the bytes of a frame are held until the fragment with the last one, which completes it and re-arms. -/
theorem anySplitCompletesOnce : Obligations.AnySplitCompletesOnce :=
  fun _ _ _ _ _ _ => answers_of_splitFrame

end Sys2Proof.Machine
end

section
/-! PROOFS. 42_reassembler.md sections 3 and 4: RX_RESET and CACHE_READ (R150, R151). -/

namespace Sys2Proof.Machine

/-- R74 (b): a command that uses no operand refuses one. -/
theorem exec_of_unusedOperand {i : Instr} {s : State} (hunused : i.usesOperand = false) (h : s.op ≠ []) :
    exec i s = .next (illegalAnswer s) :=
  exec_of_illegal fun ⟨_, _, hop⟩ => hop.elim (fun hused => by simp [hunused] at hused) h

/-- Settles O52: RX_RESET's word, its refusal, and what it clears (R150). -/
theorem rxResetClearsReceiveState : Obligations.RxResetClearsReceiveState :=
  ⟨by decide, fun _ => exec_of_unusedOperand rfl, fun s hop =>
    exec_of_legal (i := .rxReset) ⟨rfl, by simp [hop], .inr hop⟩⟩

theorem exec_cacheRead {s : State} {sel : Byte} (hop : s.op = []) (hsel : sel.toNat ≤ 1) :
    exec (.cacheRead sel) s = .next { s with out := cacheBytes sel s.cache, ev := [] } :=
  exec_of_legal (i := .cacheRead sel) ⟨decide_eq_true hsel, by simp [hop], .inr hop⟩

/-- Settles O53: CACHE_READ's word, its refusals, and the bytes of each content of the cache (R151). -/
theorem cacheReadReturnsCachedBytes : Obligations.CacheReadReturnsCachedBytes := by
  refine ⟨fun sel => ?_, fun _ _ => exec_of_unusedOperand rfl, fun s hop =>
    ⟨fun hcache sel hsel => ?_, fun p d hcache => ?_, fun p d hcache => ?_, fun p hcache => ?_, fun sel hsel => ?_⟩⟩
  · rw [encode, commandWord_toNat]
    simp only [BitVec.toNat_ofNat]
    omega
  · rw [exec_cacheRead hop hsel, hcache, cacheBytes]
  · rw [exec_cacheRead hop (by decide), hcache]
    rfl
  · rw [exec_cacheRead hop (by decide), hcache]
    rfl
  · rw [exec_cacheRead hop (by decide), hcache]
    rfl
  · exact exec_of_illegal fun ⟨hargs, _, _⟩ => absurd (of_decide_eq_true hargs) (Nat.not_le.mpr hsel)

end Sys2Proof.Machine
end

section
/-! PROOFS. 43_control.md: CFG_WRITE, REG_READ and STATUS_CLEAR (R170 to R172). -/

namespace Sys2Proof.Machine

/-! ### What the three commands share -/

/-- A command whose argument and empty operand pass R74 has its effect. -/
theorem exec_of_emptyOperand {i : Instr} {s : State} (hargs : i.wellFormed = true) (hop : s.op = []) :
    exec i s = .next (effectOf i s.beginAnswer) :=
  exec_of_legal ⟨hargs, by simp [hop], .inr hop⟩

/-- R74 (d): a command refuses an argument that fails its own check. -/
theorem exec_of_illFormed {i : Instr} (s : State) (hargs : i.wellFormed = false) :
    exec i s = .next (illegalAnswer s) :=
  exec_of_illegal fun ⟨hwf, _, _⟩ => absurd (hargs.symm.trans hwf) Bool.false_ne_true

theorem commandWord_arg8_toNat (opc arg8 : Byte) :
    (commandWord opc arg8 0#16).toNat = opc.toNat + 2 ^ 8 * arg8.toNat := by
  rw [commandWord_toNat, BitVec.toNat_zero, Nat.mul_zero, Nat.zero_add, Nat.add_comm]

theorem commandWord_arg16_toNat (opc : Byte) (arg16 : Half) :
    (commandWord opc 0#8 arg16).toNat = opc.toNat + 2 ^ 16 * arg16.toNat := by
  rw [commandWord_toNat, BitVec.toNat_zero]
  omega

/-! ### CFG_WRITE -/

/-- Bit `i` of the value is bit `i` of the CTRL it is stored in. -/
theorem cfgWriteEffect_ctrl_bit (v : Half) (s : State) {i : Nat} (hi : i < 32) :
    (cfgWriteEffect v s).ctrl.getLsbD i = v.getLsbD i := by
  simp [hi]

/-- Settles O54: CFG_WRITE's word, its refusals, and the fields of the CTRL it stores (R170). -/
theorem cfgWriteStoresValue : Obligations.CfgWriteStoresValue := by
  refine ⟨commandWord_arg16_toNat 0x10#8, fun _ _ => exec_of_unusedOperand rfl, fun s v hop =>
    ⟨fun hv => ⟨cfgWriteEffect v s.beginAnswer, exec_of_emptyOperand (decide_eq_true hv) hop, rfl, ?_, ?_, ?_, ?_, ?_⟩,
      fun hv => exec_of_illFormed s (decide_eq_false (Nat.not_lt.mpr hv))⟩⟩
  · rw [cfgWriteEffect_ctrl, BitVec.toNat_setWidth_of_le (by decide)]
  all_goals exact cfgWriteEffect_ctrl_bit v _ (by decide)

/-! ### REG_READ -/

theorem register_rxExpected (s : State) : s.register 0x03#8 = BitVec.ofNat 32 (s.rxExpected.getD 0) := rfl

/-- R28: SYNC holds S0 in its low byte and S1 in the next. -/
theorem register_sync_toNat (s : State) :
    (s.register 0x06#8).toNat = s.params.sync0.toNat + 256 * s.params.sync1.toNat := by
  have hregister : s.register 0x06#8 = (s.params.sync1 ++ s.params.sync0 : BitVec (8 + 8)).setWidth 32 := rfl
  rw [hregister, BitVec.toNat_setWidth_of_le (by decide), BitVec.toNat_append, Nat.shiftLeft_eq, Nat.mul_comm,
    ← Nat.two_pow_add_eq_or_of_lt s.params.sync0.isLt]
  omega

theorem exec_regRead {s : State} {index : Byte} (hop : s.op = []) (hindex : index.toNat ≤ 6) :
    exec (.regRead index) s = .next { s with out := u32le (s.register index), ev := [] } :=
  exec_of_emptyOperand (i := .regRead index) (decide_eq_true hindex) hop

/-- Settles O55: REG_READ's word, its refusals, and the register each index reads (R171). -/
theorem regReadReturnsRegister : Obligations.RegReadReturnsRegister := by
  refine ⟨commandWord_arg8_toNat 0x11#8, fun _ _ => exec_of_unusedOperand rfl, fun s index hop =>
    ⟨fun hindex => ⟨_, s.register index, exec_regRead hop hindex, rfl, u32le_length _, le32_u32le _, ?_⟩,
      fun hindex => exec_of_illFormed s (decide_eq_false (Nat.not_le.mpr hindex))⟩⟩
  refine ⟨?_, ?_, ?_, ?_, ?_, ?_, ?_⟩ <;> rintro rfl
  · rfl
  · rfl
  · rfl
  · rw [register_rxExpected]
    cases s.rxExpected with
    | none => rfl
    | some total => rfl
  · rfl
  · rfl
  · exact register_sync_toNat s

/-! ### STATUS_CLEAR -/

theorem statusClearEffect_sticky_bit (m : Byte) (s : State) {i : Nat} (hi : i < 5) :
    (statusClearEffect m s).sticky.getLsbD i = (s.sticky.getLsbD i && !m.getLsbD i) := by
  simp [hi]

/-- Settles O57: STATUS_CLEAR's word, its refusals, and the sticky bits it leaves set (R172). -/
theorem statusClearClearsSelectedBits : Obligations.StatusClearClearsSelectedBits :=
  ⟨commandWord_arg8_toNat 0x12#8, fun _ _ => exec_of_unusedOperand rfl, fun s m hop =>
    ⟨fun hm => ⟨statusClearEffect m s.beginAnswer, exec_of_emptyOperand (decide_eq_true hm) hop, rfl,
        fun _ hi => statusClearEffect_sticky_bit m s.beginAnswer hi⟩,
      fun hm => exec_of_illFormed s (decide_eq_false (Nat.not_lt.mpr hm))⟩⟩

end Sys2Proof.Machine
end

section
/-! PROOFS. 60_exceptions.md: that every command and every step has an answer (R204, R237), that EV and the sticky bits
tell the same reports (R200, R202), and that no report is made twice (R207). -/

namespace Sys2Proof.Machine

/-! ### Every step completes (R204, R237) -/

theorem exec_completes (i : Instr) (s : State) : ∃ t, exec i s = .next t := by
  by_cases hlegal : Legal i s
  · exact ⟨_, exec_of_legal hlegal⟩
  · exact ⟨_, exec_of_illegal hlegal⟩

/-- R230, R232: a reset's step, whatever transaction it cancels. -/
theorem step_of_reset {s : State} {c : Option (Word × List Byte)} {rest : List HostAction}
    (h : s.inbox = .reset c :: rest) : step s = .next (State.hostReset { s with inbox := rest }) := by
  simp only [step, fetch_reset h]

/-- Settles O10: an idle step and a reset have a next state, and a transaction is a command, which is carried out or
refused, or matches no row and is refused. -/
theorem everyStepCompletes : Obligations.EveryStepCompletes := by
  intro s
  match hinbox : s.inbox with
  | [] => exact ⟨s, idleStepHoldsTheState s hinbox⟩
  | .reset c :: rest => exact ⟨_, step_of_reset hinbox⟩
  | .command w op :: rest =>
    by_cases hrow : ∃ i, decode w = .ok i
    · obtain ⟨i, hdec⟩ := hrow
      rw [step_of_decode_ok hinbox hdec]
      exact exec_completes i _
    · exact ⟨_, step_of_no_row hinbox fun i hdec => hrow ⟨i, hdec⟩⟩

/-! ### An error kind's bit (R200) -/

theorem errorCode_bounds (k : ErrorKind) : 1 ≤ k.code.toNat ∧ k.code.toNat ≤ 5 := by
  cases k <;> decide

/-- The kind with code `c` has STATUS bit 7 + `c`, and no other. -/
theorem stickyBit_getLsbD_iff (k : ErrorKind) (j : Nat) :
    k.stickyBit.getLsbD j = true ↔ 8 + j = 7 + k.code.toNat := by
  have hbit : k.stickyBit = BitVec.twoPow 5 (k.code.toNat - 1) := by cases k <;> rfl
  have hcode := errorCode_bounds k
  rw [hbit, BitVec.getLsbD_twoPow, Bool.and_eq_true, decide_eq_true_iff, decide_eq_true_iff]
  omega

/-- R23: STATUS shows the sticky bits from bit 8 on. -/
theorem status_getLsbD (s : State) (j : Nat) : s.status.getLsbD (8 + j) = s.sticky.getLsbD j := by
  have hcode : s.rxState.code.getLsbD (8 + j) = false := BitVec.getLsbD_of_ge _ _ (by omega)
  by_cases hj : j < 5
  · have hlow : 8 + j < 32 := by omega
    simp [State.status, hcode, hlow]
  · have hsticky : s.sticky.getLsbD j = false := BitVec.getLsbD_of_ge _ _ (Nat.not_lt.mp hj)
    simp [State.status, hcode, hsticky]

/-! ### The reports in EV are the sticky bits that are set (R202) -/

/-- The sticky bit an event reports: an ERROR event's is its kind's (R200), another event has none. -/
def Event.stickyBit : Event → BitVec 5
  | .progress => 0#5
  | .complete _ _ => 0#5
  | .error k => k.stickyBit

/-- The sticky bits of all ERROR events of an EV. -/
def reportedBits (ev : List Event) : BitVec 5 := ev.foldr (fun e bits => e.stickyBit ||| bits) 0#5

@[simp] theorem reportedBits_nil : reportedBits [] = 0#5 := rfl

@[simp] theorem reportedBits_cons (e : Event) (ev : List Event) :
    reportedBits (e :: ev) = e.stickyBit ||| reportedBits ev := rfl

@[simp] theorem reportedBits_append (ev ev' : List Event) :
    reportedBits (ev ++ ev') = reportedBits ev ||| reportedBits ev' := by
  induction ev with
  | nil => simp
  | cons e ev ih => simp [ih, BitVec.or_assoc]

theorem event_stickyBit_getLsbD_iff (e : Event) (j : Nat) :
    e.stickyBit.getLsbD j = true ↔ ∃ k : ErrorKind, e = .error k ∧ 8 + j = 7 + k.code.toNat := by
  cases e with
  | progress => simp [Event.stickyBit]
  | complete p d => simp [Event.stickyBit]
  | error k => simp [Event.stickyBit, stickyBit_getLsbD_iff]

theorem reportedBits_getLsbD_iff (ev : List Event) (j : Nat) :
    (reportedBits ev).getLsbD j = true ↔ ∃ k : ErrorKind, 8 + j = 7 + k.code.toNat ∧ Event.error k ∈ ev := by
  induction ev with
  | nil => simp
  | cons e ev ih =>
    rw [reportedBits_cons, BitVec.getLsbD_or, Bool.or_eq_true, event_stickyBit_getLsbD_iff, ih]
    simp only [List.mem_cons, and_or_left, exists_or, eq_comm (a := e), and_comm]

/-- The sticky bits are the bits `base` and those of the reports in EV. -/
def State.Logs (base : BitVec 5) (s : State) : Prop := s.sticky = base ||| reportedBits s.ev

namespace State.Logs
variable {base : BitVec 5} {s t : State}

theorem of_ev_nil (hev : s.ev = []) : s.Logs s.sticky := by
  simp [State.Logs, hev]

/-- The property speaks of EV and the sticky bits alone. -/
theorem congr (h : s.Logs base) (hev : t.ev = s.ev) (hsticky : t.sticky = s.sticky) : t.Logs base := by
  rwa [State.Logs, hev, hsticky]

/-- R202: a report sets its bit and appends its event. -/
theorem raiseIf (h : s.Logs base) (c : Bool) (k : ErrorKind) : (s.raiseIf c k).Logs base := by
  rw [State.Logs] at h ⊢
  cases c <;> simp [h, Event.stickyBit, BitVec.or_assoc]

theorem emit (h : s.Logs base) {e : Event} (he : e.stickyBit = 0#5) : (s.emit e).Logs base := by
  rw [State.Logs] at h ⊢
  simp [h, he]

theorem headerPhase (h : s.Logs base) : (headerPhase s).Logs base := by
  cases hstate : s.rxState with
  | accumulating => rwa [headerPhase_accumulating hstate]
  | awaitingHeader =>
    rw [headerPhase_awaiting hstate]
    exact (h.congr (acceptHeader_ev _ _) (acceptHeader_sticky _ _)).raiseIf _ _

theorem completeFrame (h : s.Logs base) (total : Nat) : (completeFrame total s).Logs base :=
  (((h.raiseIf _ .excessDiscarded).raiseIf _ .truncatedBlock).emit rfl).congr rfl rfl

theorem completionPhase (h : s.Logs base) : (completionPhase s).Logs base := by
  obtain ⟨total, -, -, -, heq⟩ | ⟨-, heq⟩ := completionPhase_cases s
  · rw [heq]; exact h.completeFrame total
  · rwa [heq]

end State.Logs

/-- The sticky bits after a command are those it keeps, all of them unless it is STATUS_CLEAR, and those it reports. -/
theorem exec_logs {i : Instr} {s t : State} (h : exec i s = .next t) : ∃ kept, t.Logs (s.sticky &&& kept) := by
  have hstart : s.beginAnswer.Logs (s.sticky &&& BitVec.allOnes 5) := by
    rw [BitVec.and_allOnes]; exact .of_ev_nil rfl
  cases exec_writes h with
  | answer i c k q => exact ⟨_, (hstart.raiseIf c k).congr rfl rfl⟩
  | receive =>
    have happended := hstart.congr (t := s.beginAnswer.appendFragment) rfl rfl
    exact ⟨_, (happended.headerPhase.emit rfl).completionPhase⟩
  | clearReceive => exact ⟨_, hstart.congr rfl rfl⟩
  | configure v hv => exact ⟨_, hstart.congr rfl rfl⟩
  | clearStatus m => exact ⟨~~~(m.extractLsb' 0 5), .of_ev_nil rfl⟩

/-- Settles O22: a STATUS bit after a command was kept or is reported in EV, and every report in EV is such a bit. -/
theorem errorEventsAndStickyBitsAgree : Obligations.ErrorEventsAndStickyBitsAgree := by
  intro i s t h
  obtain ⟨kept, hlogs⟩ := exec_logs h
  have hbit (j : Nat) : t.status.getLsbD (8 + j) =
      (s.status.getLsbD (8 + j) && kept.getLsbD j || (reportedBits t.ev).getLsbD j) := by
    rw [status_getLsbD, status_getLsbD, hlogs, BitVec.getLsbD_or, BitVec.getLsbD_and]
  refine ⟨fun k hk => ?_, fun b hb hset hclear => ?_⟩
  · obtain ⟨j, hj⟩ : ∃ j, 7 + k.code.toNat = 8 + j :=
      Nat.exists_eq_add_of_le (Nat.add_le_add_left (errorCode_bounds k).1 7)
    rw [hj, hbit, (reportedBits_getLsbD_iff t.ev j).mpr ⟨k, hj.symm, hk⟩, Bool.or_true]
  · obtain ⟨j, rfl⟩ := Nat.exists_eq_add_of_le hb
    rw [hbit, hclear, Bool.false_and, Bool.false_or] at hset
    exact (reportedBits_getLsbD_iff t.ev j).mp hset

/-! ### No event is repeated (R148, R149, R207) -/

/-- The events of an RX_FRAGMENT that completes a frame and has every report to make, in R149's order. -/
def fullReport (p : List Byte) (d : Option (List Byte)) : List Event :=
  [.error .framingError, .progress, .error .excessDiscarded, .error .truncatedBlock, .complete p d]

theorem fullReport_nodup (p : List Byte) (d : Option (List Byte)) : (fullReport p d).Nodup := by
  simp [fullReport]

theorem report_sublist (c : Bool) (e : Event) : (if c then [e] else []).Sublist [e] := by
  cases c with
  | false => exact List.nil_sublist _
  | true => exact List.Sublist.refl _

/-- Every RX_FRAGMENT makes some of these reports, in this order, each from its own place. -/
theorem rxFragmentEffect_ev_sublist (s : State) :
    ∃ p d, (rxFragmentEffect s.beginAnswer).ev.Sublist (fullReport p d) := by
  have hheader : (s.afterHeader s.foundHeader).ev.Sublist [.error .framingError, .progress] :=
    (report_sublist _ _).append (List.Sublist.refl _)
  rw [rxFragmentEffect, headerPhase_eq_afterHeader]
  obtain ⟨total, -, -, -, heq⟩ | ⟨-, heq⟩ := completionPhase_cases (s.afterHeader s.foundHeader)
  · obtain ⟨excess, partialBlock, p, d, hev⟩ := completeFrame_ev_order total (s.afterHeader s.foundHeader)
    rw [heq, hev]
    exact ⟨p, d, ((hheader.append (report_sublist excess _)).append (report_sublist partialBlock _)).append
      (List.Sublist.refl _)⟩
  · rw [heq]
    exact ⟨[], none, hheader.trans (List.sublist_append_left _ _)⟩

theorem exec_ev_nodup {i : Instr} {s t : State} (h : exec i s = .next t) : t.ev.Nodup := by
  cases exec_writes h with
  | answer i c k q =>
    have hev : (s.beginAnswer.raiseIf c k).ev.Sublist [.error k] := by
      rw [raiseIf_ev]; exact report_sublist c _
    exact hev.nodup (List.nodup_singleton _)
  | receive =>
    obtain ⟨p, d, hev⟩ := rxFragmentEffect_ev_sublist s
    exact hev.nodup (fullReport_nodup p d)
  | clearReceive => exact List.nodup_nil
  | configure v hv => exact List.nodup_nil
  | clearStatus m => exact List.nodup_nil

/-- Settles O23: no event of an EV is repeated, an ERROR event no more than another. -/
theorem eachErrorReportedAtMostOnce : Obligations.EachErrorReportedAtMostOnce := fun _ _ _ h k =>
  List.nodup_iff_count_le_one.mp (exec_ev_nodup h) (.error k)

end Sys2Proof.Machine
end

section
/-! PROOFS. 70_reset_and_hazards.md: the state after reset (R230 to R232), and that a command sees the effects of the
transaction before it (R235). -/

namespace Sys2Proof.Machine

/-! ### Reset (R230, R232) -/

@[simp] theorem hostReset_status (s : State) : s.hostReset.status = 0#32 := by
  simp [State.status, RxState.code]

/-- R230: the four fields of the reset value of CTRL. -/
theorem hostReset_ctrl_fields (s : State) :
    s.hostReset.rxCompressed = true ∧ s.hostReset.txCompressed = false ∧ s.hostReset.resyncScan = true ∧
      s.hostReset.truncPad = false := by
  simp [State.rxCompressed, State.txCompressed, State.resyncScan, State.truncPad]

/-- A reset of the state the machine starts in changes nothing. -/
theorem hostReset_reset : State.reset.hostReset = State.reset := rfl

/-- Settles O13: the step is `hostReset`, which keeps only the parameters and the actions still to come, whatever
transaction it cancels. -/
theorem resetSetsEveryStateValue : Obligations.ResetSetsEveryStateValue := by
  intro s c rest hinbox
  refine ⟨_, step_of_reset hinbox, ?_⟩
  obtain ⟨hrx, htx, hscan, hpad⟩ := hostReset_ctrl_fields { s with inbox := rest }
  simp [hrx, htx, hscan, hpad]

/-- Settles O14: the start state is one that a reset leaves. -/
theorem startStateHoldsResetValues : Obligations.StartStateHoldsResetValues := by
  unfold Obligations.StartStateHoldsResetValues
  rw [← hostReset_reset]
  simp

/-! ### The step of a command's own word (R60, R73) -/

section EncodedTransaction
variable {s : State} {rest : List HostAction}

theorem step_of_encode {i : Instr} {op : List Byte} (hinbox : s.inbox = .command (encode i) op :: rest) :
    step s = exec i { s with inbox := rest, op := op } :=
  step_of_decode_ok hinbox (decode_encode i)

theorem step_cfgWrite {v : Half} (hinbox : s.inbox = .command (encode (.cfgWrite v)) [] :: rest) (hv : v.toNat < 16) :
    step s = .next { s with ctrl := v.setWidth 32, inbox := rest, op := [], out := [], ev := [] } :=
  (step_of_encode hinbox).trans (exec_of_emptyOperand (i := .cfgWrite v) (decide_eq_true hv) rfl)

theorem step_regRead {index : Byte} (hinbox : s.inbox = .command (encode (.regRead index)) [] :: rest)
    (hindex : index.toNat ≤ 6) :
    step s = .next { s with inbox := rest, op := [], out := u32le (s.register index), ev := [] } :=
  (step_of_encode hinbox).trans (exec_regRead rfl hindex)

theorem step_cacheRead {sel : Byte} (hinbox : s.inbox = .command (encode (.cacheRead sel)) [] :: rest)
    (hsel : sel.toNat ≤ 1) :
    step s = .next { s with inbox := rest, op := [], out := cacheBytes sel s.cache, ev := [] } :=
  (step_of_encode hinbox).trans (exec_cacheRead rfl hsel)

end EncodedTransaction

/-! ### What the next command reads (R235) -/

/-- A value that fits one byte is that byte and three zero bytes. -/
theorem u32le_setWidth {v : Half} (hv : v.toNat < 2 ^ 8) :
    u32le (v.setWidth 32) = [BitVec.ofNat 8 v.toNat, 0#8, 0#8, 0#8] := by
  simp only [u32le, List.cons.injEq, and_true, ← BitVec.toNat_inj, BitVec.extractLsb'_toNat, BitVec.toNat_setWidth,
    BitVec.toNat_ofNat, Nat.shiftRight_eq_div_pow]
  omega

/-- Settles O59: CFG_WRITE leaves the value in CTRL, which is register 0 of the state REG_READ starts from. -/
theorem readSeesPrecedingWrite : Obligations.ReadSeesPrecedingWrite := by
  intro s v rest hv hinbox
  exact ⟨_, _, step_cfgWrite hinbox hv, step_regRead rfl (by decide), u32le_setWidth (by omega), rfl⟩

/-- R146: the payload and samples of a COMPLETE are what the cache holds, in every state. -/
theorem cache_of_complete_mem {s t : State} {p : List Byte} {d : Option (List Byte)}
    (hexec : exec .rxFragment s = .next t) (hmem : Event.complete p d ∈ t.ev) : t.cache = some ⟨p, d⟩ := by
  obtain ⟨total, -, -, -, rfl⟩ := exec_rxFragment_of_complete_mem hexec hmem
  obtain ⟨rfl, rfl⟩ := (complete_mem_completeFrame_iff (complete_not_mem_afterHeader _ _ _ _)).mp hmem
  exact completeFrame_cache _ _

/-- Settles O60: the completion caches its payload, and the CACHE_READ next in the inbox reads that cache. -/
theorem cacheReadSeesPrecedingCompletion : Obligations.CacheReadSeesPrecedingCompletion := by
  intro s f rest t p d hinbox hstep hmem
  rw [step_of_encode hinbox] at hstep
  obtain ⟨-, htaken⟩ := exec_params_inbox hstep
  refine ⟨_, step_cacheRead htaken (by decide), ?_, rfl, rfl⟩
  rw [cache_of_complete_mem hstep hmem]
  rfl

end Sys2Proof.Machine
end
